-- ==== Sys2Proof/Word.lean ====
section
/-! DEFINITION. The Word of the machine and its plainest arithmetic (00_scope.md R9, R10). The spec's `sint16(b)` is
`b.toInt` and its `uint16(b)` is `b.toNat` (R10). -/

namespace Sys2Proof

/-- "Word — a 16-bit signed integer", held as a 16-bit pattern (00_scope.md R8, R16; 20_memory.md R60). -/
abbrev Word := BitVec 16

/-- `trunc16(i)`: the low 16 bits of a mathematical integer (00_scope.md R10). -/
abbrev trunc16 (i : Int) : Word := BitVec.ofInt 16 i

end Sys2Proof
end

