-- ==== Sys2Proof/Config.lean ====
section
/-! DEFINITION. What an implementation fixes: the parameters of 00_scope.md R8, and the one value the spec
leaves open without a rule (the PC a trace line shows, log 23). -/

namespace Sys2Proof

/-- The sixteen opcodes by mnemonic (30_encoding.md R84, R93). Their 4-bit codes are the parameter `OPCODE_MAP`. -/
inductive Opcode where
  | nop | lda | sta | add | sub | mul | div | and | or | xor | cmp | jmp | jz | jnz | jsr | rts
  deriving DecidableEq, Repr

/-- The four addressing modes by name (30_encoding.md R83). Their 2-bit codes are the parameter `MODE_MAP`. -/
inductive Mode where
  | immediate | direct | indirect | indexed
  deriving DecidableEq, Repr

/-- The parameters the block takes (00_scope.md R8): "A model takes `STACK_TOP`, `OPCODE_MAP` and `MODE_MAP` as
arguments". A code that stands in no row of a table has no entry in it (60_exceptions.md R222, R227). -/
structure Config where
  /-- `STACK_TOP`, the initial stack pointer. -/
  stackTop  : Word
  /-- `OPCODE_MAP`: the 4-bit code of each mnemonic. -/
  opcodeMap : List (BitVec 4 × Opcode)
  /-- `MODE_MAP`: the 2-bit code of each mode. -/
  modeMap   : List (BitVec 2 × Mode)
  deriving DecidableEq, Repr

/-- The constraint of 00_scope.md R8 on `STACK_TOP`, and that the two maps are maps: no code and no name stands
in two rows (log 29). -/
abbrev Config.wf (c : Config) : Prop :=
  1 ≤ c.stackTop.toNat ∧ c.stackTop.toNat ≤ 1023 ∧
  (c.opcodeMap.map Prod.fst).Nodup ∧ (c.opcodeMap.map Prod.snd).Nodup ∧
  (c.modeMap.map Prod.fst).Nodup ∧ (c.modeMap.map Prod.snd).Nodup

/-- Whether a trace line's "program counter" is the advanced `PC` or the fetch address: "not modelled" by the spec
(60_exceptions.md R262, D37), so a free value that nothing can evaluate (log 23). -/
opaque Config.traceShowsAdvancedPc : Bool

end Sys2Proof
end

