-- ==== Sys2Proof/Machine/Params.lean ====
section
/-! DEFINITION. The default parameters of 00_scope.md R8, the lookups in them, and the reset values of
70_reset_and_hazards.md R270. -/

namespace Sys2Proof

/-- `OPCODE_MAP`, the default table of 30_encoding.md R84 (the spec's decision D1, log 2). -/
def defaultOpcodeMap : List (BitVec 4 × Opcode) :=
  [(0x0, .nop), (0x1, .lda), (0x2, .sta), (0x3, .add), (0x4, .sub), (0x5, .mul), (0x6, .div), (0x7, .and),
   (0x8, .or), (0x9, .xor), (0xA, .cmp), (0xB, .jmp), (0xC, .jz), (0xD, .jnz), (0xE, .jsr), (0xF, .rts)]

/-- `MODE_MAP`, the default table of 30_encoding.md R83 (the spec's decision D3, log 3). -/
def defaultModeMap : List (BitVec 2 × Mode) :=
  [(0b00, .immediate), (0b01, .direct), (0b10, .indirect), (0b11, .indexed)]

/-- The default `STACK_TOP` of 00_scope.md R8 (the spec's decision D4, log 4). -/
def defaultStackTop : Word := 1023

/-- The parameters every example of the spec uses (00_scope.md R8). -/
def defaultConfig : Config :=
  { stackTop := defaultStackTop, opcodeMap := defaultOpcodeMap, modeMap := defaultModeMap }

/-- The opcode a 4-bit code stands for, if `OPCODE_MAP` has an entry for it (30_encoding.md R84). -/
def Config.opcodeOf (c : Config) (code : BitVec 4) : Option Opcode :=
  (c.opcodeMap.find? fun row => row.1 == code).map Prod.snd

/-- The 4-bit code of an opcode, if it has one. -/
def Config.codeOf (c : Config) (op : Opcode) : Option (BitVec 4) :=
  (c.opcodeMap.find? fun row => row.2 == op).map Prod.fst

/-- The mode a 2-bit code stands for, if `MODE_MAP` has an entry for it (30_encoding.md R83). -/
def Config.modeOf (c : Config) (code : BitVec 2) : Option Mode :=
  (c.modeMap.find? fun row => row.1 == code).map Prod.snd

/-- The number of words of memory, `MEM_WORDS` (00_scope.md R8). -/
def memWords : Nat := 1024

/-- The number of breakpoint slots, `BP_SLOTS` (00_scope.md R8). -/
def bpSlots : Nat := 32

/-- `PC` after reset (70_reset_and_hazards.md R270, R273; D19, log 6). -/
def resetPc : Word := 0

/-- `A` after reset (70_reset_and_hazards.md R270; D19, log 6). -/
def resetA : Word := 0

/-- `X` after reset (70_reset_and_hazards.md R270; D19, log 6). -/
def resetX : Word := 0

/-- `IR` after reset (70_reset_and_hazards.md R270; D19, log 6). -/
def resetIr : Word := 0

/-- Each of `Z`, `N`, `C`, `V` after reset (70_reset_and_hazards.md R270; D19, log 6). -/
def resetFlag : Bool := false

/-- What a memory word that nothing has written reads as (20_memory.md R61; D19, log 6). -/
def resetMemWord : Word := 0

/-- `exit_code` after reset (70_reset_and_hazards.md R270; D19, log 6). -/
def resetExitCode : BitVec 10 := 0

/-- `debug_enabled` and `trace_enabled` after reset (70_reset_and_hazards.md R270; D19, log 6). -/
def resetEnable : Bool := false

end Sys2Proof
end

