-- ==== Sys2Proof/Machine/State.lean ====
section
/-! DEFINITION. The state of the machine, all of it plain data (10_state.md), and its value after reset. -/

namespace Sys2Proof.Machine

/-- The run state (10_state.md R41). -/
inductive RunState where
  | stopped | running | halted | error | breakpoint
  deriving DecidableEq, Repr

/-- `Halted` and `Error` are the terminal states (10_state.md R41; 90_conflicts.md C11). -/
abbrev RunState.Terminal (r : RunState) : Prop := r = .halted ∨ r = .error

/-- The eight error kinds, each with the information it records (60_exceptions.md R220). -/
inductive ErrorCause where
  | invalidAddress (address : Int)
  | invalidAddressingMode (mode : BitVec 2)
  | cannotStoreToImmediate
  | divisionByZero
  | stackOverflow
  | stackUnderflow
  | invalidOpcode (opc : BitVec 4)
  | pcOutOfBounds (pc : Word)
  deriving DecidableEq, Repr

/-- `last_error`: kind and information, and `PC` when the error was detected (10_state.md R43). -/
structure ErrorRecord where
  cause : ErrorCause
  pc    : Word
  deriving DecidableEq, Repr

/-- The flag latch, four storage bits (10_state.md R38). -/
structure Flags where
  z : Bool
  n : Bool
  c : Bool
  v : Bool
  deriving DecidableEq, Repr

/-- One slot in use of the breakpoint table (10_state.md R46); the condition text is read by no rule
(60_exceptions.md R260). -/
structure Breakpoint where
  address   : Fin 1024
  enabled   : Bool
  hitCount  : Nat
  condition : String
  deriving DecidableEq, Repr

/-- Memory: the words that differ from `resetMemWord`, by rising word address (20_memory.md R60; log 7). -/
abbrev Memory := List (Nat × Word)

/-- The canonical form from address `low` on: addresses strictly rising, inside memory, no entry equal to what an
unlisted address reads as. -/
def Memory.wfFrom : Nat → Memory → Bool
  | _, [] => true
  | low, (a, v) :: rest => decide (low ≤ a) && decide (a < memWords) && v != resetMemWord && Memory.wfFrom (a + 1) rest

/-- The canonical form of memory: equal memories are equal lists. -/
def Memory.wf (m : Memory) : Bool := Memory.wfFrom 0 m

/-- The machine's state: the register file, the memory, the sequencer's and the debug unit's state, and (the model's
own field) the parameters it was built with. -/
structure State where
  /-- The parameters of 00_scope.md R8; the model's own field, written by nothing (log 1). -/
  cfg          : Config
  /-- `PC` (10_state.md R34, R35). -/
  pc           : Word
  /-- `SP` (10_state.md R36). -/
  sp           : Word
  /-- `A` (10_state.md R31). -/
  a            : Word
  /-- `X` (10_state.md R32). -/
  x            : Word
  /-- `IR` (10_state.md R33). -/
  ir           : Word
  /-- `Z`, `N`, `C`, `V` (10_state.md R38). -/
  flags        : Flags
  /-- `MEM[0..1023]` (20_memory.md R60). -/
  mem          : Memory
  /-- `state` (10_state.md R41). -/
  runState     : RunState
  /-- `cycle_count` (10_state.md R42). -/
  cycleCount   : Nat
  /-- `last_error` (10_state.md R43). -/
  lastError    : Option ErrorRecord
  /-- `exit_code` (10_state.md R44). -/
  exitCode     : BitVec 10
  /-- `debug_enabled` (10_state.md R45; no effect, D39, log 24). -/
  debugEnabled : Bool
  /-- `trace_enabled` (10_state.md R45). -/
  traceEnabled : Bool
  /-- The slots in use of the breakpoint table; `bp_count` is the length (10_state.md R46). -/
  breakpoints  : List Breakpoint
  deriving DecidableEq, Repr

/-- A stop of the machine with a fault. It has no constructor: the spec describes what raising each of its errors
does (60_exceptions.md R230), so every error is a next state, and there is nothing a step could fault with (log 25).
Safe: a claim that no step faults is true because the type is empty. -/
inductive Fault where
  deriving DecidableEq, Repr

/-- A refusal to give a meaning. -/
inductive Refusal where
  /-- Raised by `exec` for an instruction that has no meaning yet; no arm raises it now. Safe: the run stops. -/
  | notModelled (mnemonic : String)
  deriving DecidableEq, Repr

/-- `init` with given parameters: every piece of state at the value of 70_reset_and_hazards.md R270, and the
breakpoint table empty (70_reset_and_hazards.md R271). -/
def State.init (c : Config) : State :=
  { cfg := c
    pc := resetPc
    sp := c.stackTop
    a := resetA
    x := resetX
    ir := resetIr
    flags := { z := resetFlag, n := resetFlag, c := resetFlag, v := resetFlag }
    mem := []
    runState := .stopped
    cycleCount := 0
    lastError := none
    exitCode := resetExitCode
    debugEnabled := resetEnable
    traceEnabled := resetEnable
    breakpoints := [] }

/-- The machine right after reset: created by `init` with the default parameters, so with an empty breakpoint table
(70_reset_and_hazards.md R270, R271, R274; log 18). -/
def State.reset : State := State.init defaultConfig

end Sys2Proof.Machine
end

