-- ==== Sys2Proof/Machine/Flags.lean ====
section
/-! DEFINITION. Every flag computation of the spec. -/

namespace Sys2Proof.Machine

/-- "the intermediate exceeds the signed 16-bit range" (43_alu.md R161). -/
def exceedsWord (i : Int) : Bool := decide (i < -32768) || decide (i > 32767)

/-- The arithmetic flag rule, from the exact integer `i` (43_alu.md R161; `Z` and `N` from `i`, D30, log 12). -/
def arithFlags (i : Int) : Flags :=
  { z := decide (i = 0), n := decide (i < 0), c := exceedsWord i, v := exceedsWord i }

/-- The logical flag rule, from the 16-bit result `r` (43_alu.md R162). -/
def logicFlags (r : Word) : Flags :=
  { z := decide (r = 0), n := r.getLsbD 15, c := false, v := false }

/-- The flags of LDA, from the loaded word; `C` and `V` are written false (42_load_store.md R140, D9, log 10). -/
def loadFlags (v : Word) : Flags :=
  { z := decide (v.toInt = 0), n := decide (v.toInt < 0), c := false, v := false }

end Sys2Proof.Machine
end

