-- ==== Sys2Proof/Syntax.lean ====
section
/-! DEFINITION. The instructions, one constructor for each row of spec/opcode_table.json. -/

namespace Sys2Proof

/-- A decoded instruction. A constructor holds the fields its rule reads and no others (30_encoding.md R88, R91,
log 28): `mode` is the raw 2-bit code, which the resolver looks up in `MODE_MAP` (41_addressing.md R127), and `opd`
the raw 10-bit operand field. `RTS` is two rows of the table and two variants of the decoded form
(30_encoding.md R89). -/
inductive Instr where
  /-- NOP (45_no_operand.md R210). -/
  | nop
  /-- LDA (42_load_store.md R140). -/
  | lda (mode : BitVec 2) (opd : BitVec 10)
  /-- STA (42_load_store.md R141). -/
  | sta (mode : BitVec 2) (opd : BitVec 10)
  /-- ADD (43_alu.md R170). -/
  | add (mode : BitVec 2) (opd : BitVec 10)
  /-- SUB (43_alu.md R171). -/
  | sub (mode : BitVec 2) (opd : BitVec 10)
  /-- MUL (43_alu.md R172). -/
  | mul (mode : BitVec 2) (opd : BitVec 10)
  /-- DIV (43_alu.md R173). -/
  | div (mode : BitVec 2) (opd : BitVec 10)
  /-- AND (43_alu.md R174). -/
  | and (mode : BitVec 2) (opd : BitVec 10)
  /-- OR (43_alu.md R175). -/
  | or (mode : BitVec 2) (opd : BitVec 10)
  /-- XOR (43_alu.md R176). -/
  | xor (mode : BitVec 2) (opd : BitVec 10)
  /-- CMP (43_alu.md R177). -/
  | cmp (mode : BitVec 2) (opd : BitVec 10)
  /-- JMP (44_control.md R190). -/
  | jmp (target : BitVec 10)
  /-- JZ (44_control.md R191). -/
  | jz (target : BitVec 10)
  /-- JNZ (44_control.md R192). -/
  | jnz (target : BitVec 10)
  /-- JSR (44_control.md R194). -/
  | jsr (target : BitVec 10)
  /-- RTS with operand 0, `Return` (44_control.md R197). -/
  | rtsReturn
  /-- RTS with operand `code`, not 0, `HaltWithCode(code)` (44_control.md R198). -/
  | rtsHalt (code : BitVec 10)
  deriving DecidableEq, Repr

end Sys2Proof
end

