-- ==== Sys2Proof/WellFormed.lean ====
section
/-! DEFINITION. Which instruction terms are instructions of the machine under given parameters. -/

namespace Sys2Proof

/-- The opcode of an instruction; both variants of RTS have one (44_control.md R196). -/
def Instr.opcode : Instr → Opcode
  | .nop => .nop
  | .lda _ _ => .lda
  | .sta _ _ => .sta
  | .add _ _ => .add
  | .sub _ _ => .sub
  | .mul _ _ => .mul
  | .div _ _ => .div
  | .and _ _ => .and
  | .or _ _ => .or
  | .xor _ _ => .xor
  | .cmp _ _ => .cmp
  | .jmp _ => .jmp
  | .jz _ => .jz
  | .jnz _ => .jnz
  | .jsr _ => .jsr
  | .rtsReturn => .rts
  | .rtsHalt _ => .rts

/-- The halt variant of RTS has a non-zero operand: operand 0 is the return variant (30_encoding.md R89). -/
def Instr.haltCodeNonzero : Instr → Bool
  | .rtsHalt code => code != 0
  | _ => true

/-- An instruction is well formed under parameters `c` when its opcode has a code and the halt variant has a
non-zero operand. Every field has exactly the width the word gives it, so there is no range to check. -/
def Instr.wf (c : Config) (i : Instr) : Bool :=
  (c.codeOf i.opcode).isSome && i.haltCodeNonzero

end Sys2Proof
end

