-- ==== Sys2Proof/Decode.lean ====
section
/-! DEFINITION. The decoder and the encoder (30_encoding.md). -/

namespace Sys2Proof

/-- `sext_16` of the 10-bit operand field: bit 9 is copied into bits 15..10 (30_encoding.md R87). -/
def sext10 (opd : BitVec 10) : Word := opd.signExtend 16

/-- `zext_16` of the 10-bit operand field (00_scope.md R10). -/
def zext10 (opd : BitVec 10) : Word := opd.setWidth 16

/-- The three fields of an instruction word (30_encoding.md R81). -/
structure Fields where
  opc  : BitVec 4
  mode : BitVec 2
  opd  : BitVec 10
  deriving DecidableEq, Repr

/-- The decoder's bit extraction: opcode bits 15..12, mode bits 11..10, operand bits 9..0 (30_encoding.md R82). -/
def Fields.ofWord (w : Word) : Fields :=
  { opc := w.extractLsb' 12 4, mode := w.extractLsb' 10 2, opd := w.extractLsb' 0 10 }

/-- The decoder's fourth output, the signed immediate (30_encoding.md R82). -/
def Fields.imm (f : Fields) : Word := sext10 f.opd

/-- The word with the given fields, most significant first (30_encoding.md R81). -/
def Fields.toWord (f : Fields) : Word :=
  (f.opc.setWidth 16 <<< 12) ||| (f.mode.setWidth 16 <<< 10) ||| f.opd.setWidth 16

/-- The encoder on integers: each input is masked to its field, in two's complement, with no error path
(30_encoding.md R85). -/
def encodeFields (opcode mode operand : Int) : Word :=
  Fields.toWord { opc := BitVec.ofInt 4 opcode, mode := BitVec.ofInt 2 mode, opd := BitVec.ofInt 10 operand }

/-- Why a word is no instruction: its opcode code has no entry in `OPCODE_MAP` (60_exceptions.md R227). -/
inductive DecodeError where
  | invalidOpcode (opc : BitVec 4)
  deriving DecidableEq, Repr

/-- The instruction of an opcode and the fields of its word (30_encoding.md R88); RTS splits on its operand
(30_encoding.md R89). Fields that are not read are dropped (30_encoding.md R91). -/
def instrOf (op : Opcode) (mode : BitVec 2) (opd : BitVec 10) : Instr :=
  match op with
  | .nop => .nop
  | .lda => .lda mode opd
  | .sta => .sta mode opd
  | .add => .add mode opd
  | .sub => .sub mode opd
  | .mul => .mul mode opd
  | .div => .div mode opd
  | .and => .and mode opd
  | .or => .or mode opd
  | .xor => .xor mode opd
  | .cmp => .cmp mode opd
  | .jmp => .jmp opd
  | .jz => .jz opd
  | .jnz => .jnz opd
  | .jsr => .jsr opd
  | .rts => if opd = 0 then .rtsReturn else .rtsHalt opd

/-- The decoder: total on every word; it rejects, by name, exactly the words whose opcode code has no entry
(30_encoding.md R82, R90; 40_execution_cycle.md R105). -/
def decode (c : Config) (w : Word) : Except DecodeError Instr :=
  match c.opcodeOf (Fields.ofWord w).opc with
  | none => .error (.invalidOpcode (Fields.ofWord w).opc)
  | some op => .ok (instrOf op (Fields.ofWord w).mode (Fields.ofWord w).opd)

/-- The mode field an instruction is encoded with; 0 where the instruction does not read it (30_encoding.md R91,
the spec's decision D28, log 28). -/
def Instr.modeField : Instr → BitVec 2
  | .nop => 0
  | .lda mode _ => mode
  | .sta mode _ => mode
  | .add mode _ => mode
  | .sub mode _ => mode
  | .mul mode _ => mode
  | .div mode _ => mode
  | .and mode _ => mode
  | .or mode _ => mode
  | .xor mode _ => mode
  | .cmp mode _ => mode
  | .jmp _ => 0
  | .jz _ => 0
  | .jnz _ => 0
  | .jsr _ => 0
  | .rtsReturn => 0
  | .rtsHalt _ => 0

/-- The operand field an instruction is encoded with (30_encoding.md R88, R91). -/
def Instr.opdField : Instr → BitVec 10
  | .nop => 0
  | .lda _ opd => opd
  | .sta _ opd => opd
  | .add _ opd => opd
  | .sub _ opd => opd
  | .mul _ opd => opd
  | .div _ opd => opd
  | .and _ opd => opd
  | .or _ opd => opd
  | .xor _ opd => opd
  | .cmp _ opd => opd
  | .jmp target => target
  | .jz target => target
  | .jnz target => target
  | .jsr target => target
  | .rtsReturn => 0
  | .rtsHalt code => code

/-- The word of an instruction under parameters `c`; none for an instruction whose opcode has no code. -/
def encode (c : Config) (i : Instr) : Option Word :=
  (c.codeOf i.opcode).map fun code => Fields.toWord { opc := code, mode := i.modeField, opd := i.opdField }

/-- The word of an instruction whose bits a row of spec/opcode_table.json numbers: one 16-bit word, its bit 0 the
table's bit 0 (30_encoding.md R80, R81). -/
def tableWord (nbits w : Nat) : Word := BitVec.ofNat 16 (w % 2 ^ nbits)

/-- The instruction the decoder reads from a word of the opcode table, under the default parameters. -/
def decodeTableWord (nbits w : Nat) : Option Instr :=
  match decode defaultConfig (tableWord nbits w) with
  | .ok i => some i
  | .error _ => none

end Sys2Proof
end

