-- ==== Sys2Proof/Machine/Ops.lean ====
section
/-! DEFINITION. The named operations over registers, memory, the stack and the run state, and the one error path. -/

namespace Sys2Proof.Machine

/-- The outcome of one step of this machine. -/
abbrev StepOutcome := Host.Outcome State Fault Refusal

/-! ### One update per piece of state -/

/-- `PC <- v`. -/
def State.setPc (s : State) (v : Word) : State := { s with pc := v }

/-- `SP <- v`. -/
def State.setSp (s : State) (v : Word) : State := { s with sp := v }

/-- `A <- v`. -/
def State.setA (s : State) (v : Word) : State := { s with a := v }

/-- `X <- v`: no instruction does it, the host may (10_state.md R32). -/
def State.setX (s : State) (v : Word) : State := { s with x := v }

/-- `Z`, `N`, `C`, `V` written together. -/
def State.setFlags (s : State) (f : Flags) : State := { s with flags := f }

/-- The memory array replaced. -/
def State.setMem (s : State) (m : Memory) : State := { s with mem := m }

/-- `state <- r`. -/
def State.setRunState (s : State) (r : RunState) : State := { s with runState := r }

/-- The breakpoint table replaced. -/
def State.setBreakpoints (s : State) (bs : List Breakpoint) : State := { s with breakpoints := bs }

/-- The fetch-phase writes for the fetched word `w`: `IR <- w`, `PC <- PC + 1`, `cycle_count <- cycle_count + 1`
(40_execution_cycle.md R104). -/
def State.loadFetched (s : State) (w : Word) : State :=
  { s with ir := w, pc := s.pc + 1, cycleCount := s.cycleCount + 1 }

/-- The halt of RTS: `exit_code <- code`, `state <- Halted` (44_control.md R198). -/
def State.halt (s : State) (code : BitVec 10) : State := { s with exitCode := code, runState := .halted }

/-! ### The error path -/

/-- What raising an error writes: `last_error <- (E, d, PC)`, `state <- Error`, and nothing else
(60_exceptions.md R230, R231). -/
def State.recordError (s : State) (e : ErrorCause) : State :=
  { s with lastError := some { cause := e, pc := s.pc }, runState := .error }

/-- The numeric code of an error kind, in the order of the spec's list (60_exceptions.md R220; the spec's decision D40,
log 30). -/
def ErrorCause.code : ErrorCause → Nat
  | .invalidAddress _ => 1
  | .invalidAddressingMode _ => 2
  | .cannotStoreToImmediate => 3
  | .divisionByZero => 4
  | .stackOverflow => 5
  | .stackUnderflow => 6
  | .invalidOpcode _ => 7
  | .pcOutOfBounds _ => 8

/-- The code of the recorded error, "0 for no error" (60_exceptions.md R220; log 30). -/
def State.errorCode (s : State) : Nat :=
  match s.lastError with
  | none => 0
  | some r => r.cause.code

/-- Taking an error: the step ends in the state with the error recorded. The spec has no handler and no return from
an error (60_exceptions.md R230, R233). -/
def takeError (e : ErrorCause) (s : State) : StepOutcome := .next (s.recordError e)

/-- The end of an instruction executed in state `s`: its writes, all of them, or the error path from `s` with none of
them (00_scope.md R13, R14). -/
def complete (s : State) (r : Except ErrorCause State) : StepOutcome :=
  match r with
  | .ok t => .next t
  | .error e => takeError e s

/-! ### Memory -/

/-- The word at an address of the array. -/
def Memory.read : Memory → Nat → Word
  | [], _ => resetMemWord
  | (b, v) :: rest, a => if a = b then v else Memory.read rest a

/-- The array with one word replaced, in canonical form. -/
def Memory.write : Memory → Nat → Word → Memory
  | [], a, v => if v = resetMemWord then [] else [(a, v)]
  | (b, u) :: rest, a, v =>
    if a < b then (if v = resetMemWord then (b, u) :: rest else (a, v) :: (b, u) :: rest)
    else if a = b then (if v = resetMemWord then rest else (a, v) :: rest)
    else (b, u) :: Memory.write rest a v

/-- The address check of every access: `a` is a mathematical integer, never reduced (20_memory.md R62). -/
def checkAddress (a : Int) : Except ErrorCause Nat :=
  if a < 0 ∨ (memWords : Int) ≤ a then .error (.invalidAddress a) else .ok a.toNat

/-- `MemRead(a, 1)` (00_scope.md R12, 20_memory.md R62). -/
def memRead (a : Int) (s : State) : Except ErrorCause Word :=
  (checkAddress a).map fun k => s.mem.read k

/-- `MemWrite(a, 1, v)` (00_scope.md R12, 20_memory.md R62). -/
def memWrite (a : Int) (v : Word) (s : State) : Except ErrorCause State :=
  (checkAddress a).map fun k => s.setMem (s.mem.write k v)

/-! ### The stack -/

/-- The push of JSR: refused at `SP = 0`, else `MEM[SP] <- v` and `SP <- SP - 1` (10_state.md R36, 44_control.md
R194). With `SP` above 1023, which no run reaches, the write's own check raises (log 29). -/
def push (v : Word) (s : State) : Except ErrorCause State :=
  if s.sp = 0 then .error .stackOverflow
  else (memWrite s.sp.toNat v s).map fun t => t.setSp (s.sp - 1)

/-- The pop of RTS: refused at `SP ≥ STACK_TOP`, else `SP <- SP + 1`, and the word at the new `SP` goes to `PC`
unchecked (10_state.md R36, 44_control.md R197). -/
def popPc (s : State) : Except ErrorCause State :=
  if s.cfg.stackTop ≤ s.sp then .error .stackUnderflow
  else (memRead ((s.sp + 1).toNat) s).map fun w => (s.setSp (s.sp + 1)).setPc w

end Sys2Proof.Machine
end

