-- ==== Sys2Proof/Machine/Operands.lean ====
section
/-! DEFINITION. The addressing-mode resolver (41_addressing.md): it reads `X` and memory, and writes nothing. -/

namespace Sys2Proof.Machine

/-- The address of Indexed mode: a mathematical sum, never reduced (41_addressing.md R124). -/
def indexedAddress (opd : BitVec 10) (s : State) : Int := (opd.toNat : Int) + (s.x.toNat : Int)

/-- `resolve_value(mode, opd)` (41_addressing.md R120 to R124); a mode code with no entry raises
InvalidAddressingMode (R127). -/
def resolveValue (mode : BitVec 2) (opd : BitVec 10) (s : State) : Except ErrorCause Word :=
  match s.cfg.modeOf mode with
  | none => .error (.invalidAddressingMode mode)
  | some .immediate => .ok (sext10 opd)
  | some .direct => memRead opd.toNat s
  | some .indirect => (memRead opd.toNat s).bind fun p => memRead p.toInt s
  | some .indexed => memRead (indexedAddress opd s) s

/-- `resolve_addr(mode, opd)` (41_addressing.md R120 to R124, R127): a valid address or an error. -/
def resolveAddr (mode : BitVec 2) (opd : BitVec 10) (s : State) : Except ErrorCause Nat :=
  match s.cfg.modeOf mode with
  | none => .error (.invalidAddressingMode mode)
  | some .immediate => .error .cannotStoreToImmediate
  | some .direct => .ok opd.toNat
  | some .indirect => (memRead opd.toNat s).bind fun p => checkAddress p.toInt
  | some .indexed => checkAddress (indexedAddress opd s)

end Sys2Proof.Machine
end

