-- ==== Sys2Proof/Machine/Alu.lean ====
section
/-! DEFINITION. The ALU and the meanings of ADD, SUB, MUL, DIV, AND, OR, XOR, CMP (43_alu.md). The wide intermediate
is an unbounded integer (R160). -/

namespace Sys2Proof.Machine

/-- The end of an arithmetic instruction with exact result `i`: `A <- trunc16(i)`, flags from `i` (43_alu.md R161,
R164). -/
def State.writeArith (s : State) (i : Int) : State := (s.setA (trunc16 i)).setFlags (arithFlags i)

/-- The end of a logical instruction with result `r`: `A <- r`, flags from `r` (43_alu.md R162). -/
def State.writeLogic (s : State) (r : Word) : State := (s.setA r).setFlags (logicFlags r)

/-- The quotient rounded toward zero, for a divisor that is not 0 (43_alu.md R166; D11, log 13). -/
def quotient (a b : Int) : Int := Int.tdiv a b

/-- ADD (43_alu.md R170). -/
def execAdd (mode : BitVec 2) (opd : BitVec 10) (s : State) : StepOutcome :=
  complete s ((resolveValue mode opd s).map fun v => s.writeArith (s.a.toInt + v.toInt))

/-- SUB (43_alu.md R171). -/
def execSub (mode : BitVec 2) (opd : BitVec 10) (s : State) : StepOutcome :=
  complete s ((resolveValue mode opd s).map fun v => s.writeArith (s.a.toInt - v.toInt))

/-- MUL (43_alu.md R172). -/
def execMul (mode : BitVec 2) (opd : BitVec 10) (s : State) : StepOutcome :=
  complete s ((resolveValue mode opd s).map fun v => s.writeArith (s.a.toInt * v.toInt))

/-- DIV: the resolver's errors first, then DivisionByZero (43_alu.md R167, R173). -/
def execDiv (mode : BitVec 2) (opd : BitVec 10) (s : State) : StepOutcome :=
  complete s ((resolveValue mode opd s).bind fun v =>
    if v.toInt = 0 then .error .divisionByZero else .ok (s.writeArith (quotient s.a.toInt v.toInt)))

/-- AND (43_alu.md R174). -/
def execAnd (mode : BitVec 2) (opd : BitVec 10) (s : State) : StepOutcome :=
  complete s ((resolveValue mode opd s).map fun v => s.writeLogic (s.a &&& v))

/-- OR (43_alu.md R175). -/
def execOr (mode : BitVec 2) (opd : BitVec 10) (s : State) : StepOutcome :=
  complete s ((resolveValue mode opd s).map fun v => s.writeLogic (s.a ||| v))

/-- XOR (43_alu.md R176). -/
def execXor (mode : BitVec 2) (opd : BitVec 10) (s : State) : StepOutcome :=
  complete s ((resolveValue mode opd s).map fun v => s.writeLogic (s.a ^^^ v))

/-- CMP: the flags of SUB, `A` not written (43_alu.md R177). -/
def execCmp (mode : BitVec 2) (opd : BitVec 10) (s : State) : StepOutcome :=
  complete s ((resolveValue mode opd s).map fun v => s.setFlags (arithFlags (s.a.toInt - v.toInt)))

end Sys2Proof.Machine
end

