-- ==== Sys2Proof/Machine/Control.lean ====
section
/-! DEFINITION. The meanings of JMP, JZ, JNZ, JSR and RTS (44_control.md). `PC` already holds the address of the
instruction + 1. -/

namespace Sys2Proof.Machine

/-- `PC <- opd`, the operand field used directly as an address (44_control.md R190). -/
def State.jumpTo (s : State) (target : BitVec 10) : State := s.setPc (zext10 target)

/-- JMP (44_control.md R190). -/
def execJmp (target : BitVec 10) (s : State) : StepOutcome := .next (s.jumpTo target)

/-- JZ (44_control.md R191). -/
def execJz (target : BitVec 10) (s : State) : StepOutcome := .next (if s.flags.z then s.jumpTo target else s)

/-- JNZ (44_control.md R192). -/
def execJnz (target : BitVec 10) (s : State) : StepOutcome := .next (if s.flags.z then s else s.jumpTo target)

/-- JSR: the target check (which a 10-bit target always passes), the push of `PC`, the jump (44_control.md R194). -/
def execJsr (target : BitVec 10) (s : State) : StepOutcome :=
  complete s ((checkAddress target.toNat).bind fun _ => (push s.pc s).map fun t => t.jumpTo target)

/-- RTS with operand 0, the return (44_control.md R197). -/
def execRtsReturn (s : State) : StepOutcome := complete s (popPc s)

/-- RTS with operand `code` not 0, the halt (44_control.md R198). -/
def execRtsHalt (code : BitVec 10) (s : State) : StepOutcome := .next (s.halt code)

end Sys2Proof.Machine
end

