-- ==== Sys2Proof/Machine/LoadStore.lean ====
section
/-! DEFINITION. The meanings of LDA and STA (42_load_store.md). -/

namespace Sys2Proof.Machine

/-- LDA: the resolved value goes to `A`, the flags follow it (42_load_store.md R140). -/
def execLda (mode : BitVec 2) (opd : BitVec 10) (s : State) : StepOutcome :=
  complete s ((resolveValue mode opd s).map fun v => (s.setA v).setFlags (loadFlags v))

/-- STA: `A` goes to the resolved address; no flag is written (42_load_store.md R141). -/
def execSta (mode : BitVec 2) (opd : BitVec 10) (s : State) : StepOutcome :=
  complete s ((resolveAddr mode opd s).bind fun a => memWrite a s.a s)

end Sys2Proof.Machine
end

