-- ==== Sys2Proof/Machine/NoOperand.lean ====
section
/-! DEFINITION. The meaning of NOP (45_no_operand.md). -/

namespace Sys2Proof.Machine

/-- NOP: no effect beyond the fetch phase (45_no_operand.md R210; D2, log 9). -/
def execNop (s : State) : StepOutcome := .next s

end Sys2Proof.Machine
end

