-- ==== Sys2Proof/Machine/Dispatch.lean ====
section
/-! DEFINITION. The execute phase, one arm per instruction (40_execution_cycle.md R105, R107). -/

namespace Sys2Proof.Machine

def exec (i : Instr) (s : State) : Host.Outcome State Fault Refusal :=
  match i with
  | .nop => Sys2Proof.Machine.execNop s
  | .lda mode opd => Sys2Proof.Machine.execLda mode opd s
  | .sta mode opd => Sys2Proof.Machine.execSta mode opd s
  | .add mode opd => Sys2Proof.Machine.execAdd mode opd s
  | .sub mode opd => Sys2Proof.Machine.execSub mode opd s
  | .mul mode opd => Sys2Proof.Machine.execMul mode opd s
  | .div mode opd => Sys2Proof.Machine.execDiv mode opd s
  | .and mode opd => Sys2Proof.Machine.execAnd mode opd s
  | .or mode opd => Sys2Proof.Machine.execOr mode opd s
  | .xor mode opd => Sys2Proof.Machine.execXor mode opd s
  | .cmp mode opd => Sys2Proof.Machine.execCmp mode opd s
  | .jmp target => Sys2Proof.Machine.execJmp target s
  | .jz target => Sys2Proof.Machine.execJz target s
  | .jnz target => Sys2Proof.Machine.execJnz target s
  | .jsr target => Sys2Proof.Machine.execJsr target s
  | .rtsReturn => Sys2Proof.Machine.execRtsReturn s
  | .rtsHalt code => Sys2Proof.Machine.execRtsHalt code s

end Sys2Proof.Machine
end

