-- ==== Sys2Proof/Machine/DebugUnit.lean ====
section
/-! DEFINITION. The breakpoint unit (60_exceptions.md R256 to R261). The slots in use are a list in slot order. -/

namespace Sys2Proof.Machine

/-- An enabled breakpoint at address `a` (60_exceptions.md R256, R260: the condition is not read). -/
def Breakpoint.enabledAt (a : Nat) (b : Breakpoint) : Bool := b.enabled && b.address.val == a

/-- The breakpoint check of a step at `pc`: with an enabled slot there, the table with that slot's `hit_count`
incremented (40_execution_cycle.md R102). The first such slot, if a state that no run reaches had several. -/
def hitTable (pc : Word) : List Breakpoint → Option (List Breakpoint)
  | [] => none
  | b :: rest =>
    if b.enabledAt pc.toNat then some ({ b with hitCount := b.hitCount + 1 } :: rest)
    else (hitTable pc rest).map fun rest' => b :: rest'

/-- What `add` tells the host (60_exceptions.md R256). -/
inductive AddReport where
  | added
  | rejectedInvalidAddress (address : Int)
  | rejectedDuplicate
  | rejectedResourceFull
  deriving DecidableEq, Repr

/-- A new slot: enabled, not hit yet, with an empty condition (60_exceptions.md R256, D31). -/
def freshSlot (a : Fin 1024) : Breakpoint := { address := a, enabled := true, hitCount := 0, condition := "" }

/-- The table with its lowest disabled slot reused for `b`, if it has a disabled slot (60_exceptions.md R256, D31,
log 22). -/
def reuseSlot (b : Breakpoint) : List Breakpoint → Option (List Breakpoint)
  | [] => none
  | old :: rest => if old.enabled then (reuseSlot b rest).map fun rest' => old :: rest' else some (b :: rest)

/-- `add(address)` for an address already checked (60_exceptions.md R256). -/
def addSlot (a : Fin 1024) (bs : List Breakpoint) : AddReport × List Breakpoint :=
  if bs.any (Breakpoint.enabledAt a.val) then (.rejectedDuplicate, bs)
  else
    match reuseSlot (freshSlot a) bs with
    | some bs' => (.added, bs')
    | none => if bpSlots ≤ bs.length then (.rejectedResourceFull, bs) else (.added, bs ++ [freshSlot a])

/-- `add(address)`: a rejection changes nothing, and `state` and `last_error` never change (60_exceptions.md R256,
D33, log 22). -/
def State.addBreakpoint (s : State) (a : Int) : AddReport × State :=
  if h : 0 ≤ a ∧ a < 1024 then
    let r := addSlot ⟨a.toNat, by omega⟩ s.breakpoints
    (r.1, s.setBreakpoints r.2)
  else (.rejectedInvalidAddress a, s)

/-- The table with the enabled slots at `a` marked disabled, keeping address and `hit_count` (60_exceptions.md R257). -/
def disableAt (a : Nat) (bs : List Breakpoint) : List Breakpoint :=
  bs.map fun b => if b.enabledAt a then { b with enabled := false } else b

/-- What `remove` tells the host (60_exceptions.md R257). -/
inductive RemoveReport where
  | removed
  | notFound
  deriving DecidableEq, Repr

/-- `remove(address)`: with no enabled slot there, nothing changes (60_exceptions.md R257, D32, log 22). -/
def State.removeBreakpoint (s : State) (a : Int) : RemoveReport × State :=
  if 0 ≤ a ∧ s.breakpoints.any (Breakpoint.enabledAt a.toNat) then
    (.removed, s.setBreakpoints (disableAt a.toNat s.breakpoints))
  else (.notFound, s)

/-- `list()`: the enabled slots with their hit counts, in slot order (60_exceptions.md R258). -/
def State.listBreakpoints (s : State) : List Breakpoint := s.breakpoints.filter fun b => b.enabled

end Sys2Proof.Machine
end

