-- ==== Sys2Proof/Machine/Sequencer.lean ====
section
/-! DEFINITION. The phases of a step before the execute phase (40_execution_cycle.md R101 to R105), and placing an
instruction where the next step fetches. -/

namespace Sys2Proof.Machine

/-- The four outcomes of a step (40_execution_cycle.md R100). -/
inductive StepReport where
  | ok
  | halt (code : BitVec 10)
  | error (record : Option ErrorRecord)
  | breakpoint
  deriving DecidableEq, Repr

/-- What the phases before the execute phase come to. -/
inductive Prepared where
  /-- The step ends here, in this state and with this report. -/
  | done (report : StepReport) (t : State)
  /-- The instruction is decoded and executes in this state, with the fetch-phase writes made. -/
  | run (i : Instr) (t : State)
  deriving DecidableEq, Repr

/-- An error raised before the execute phase (60_exceptions.md R230). -/
def Prepared.ofError (e : ErrorCause) (s : State) : Prepared :=
  .done (.error (s.recordError e).lastError) (s.recordError e)

/-- Phases 3a to 3c: the fetch check, the fetch, the decode (40_execution_cycle.md R103 to R105; 60_exceptions.md R227,
R228). -/
def fetchDecode (s : State) : Prepared :=
  if memWords ≤ s.pc.toNat then Prepared.ofError (.pcOutOfBounds s.pc) s
  else
    let t := s.loadFetched (s.mem.read s.pc.toNat)
    match decode s.cfg (s.mem.read s.pc.toNat) with
    | .error (.invalidOpcode opc) => Prepared.ofError (.invalidOpcode opc) t
    | .ok i => .run i t

/-- Phase 2, then the fetch: the breakpoint check comes first (40_execution_cycle.md R102). -/
def checkBreakpoint (s : State) : Prepared :=
  match hitTable s.pc s.breakpoints with
  | some bs => .done .breakpoint ((s.setBreakpoints bs).setRunState .breakpoint)
  | none => fetchDecode s

/-- Phase 1, then the rest: in a terminal state nothing is read or written (40_execution_cycle.md R101). -/
def beforeExecute (s : State) : Prepared :=
  match s.runState with
  | .halted => .done (.halt s.exitCode) s
  | .error => .done (.error s.lastError) s
  | .stopped => checkBreakpoint s
  | .running => checkBreakpoint s
  | .breakpoint => checkBreakpoint s

/-- The report of a step whose execute phase, begun in a state that is not terminal, ended in `t`
(40_execution_cycle.md R107; 44_control.md R198; 60_exceptions.md R230). -/
def reportAfter (t : State) : StepReport :=
  match t.runState with
  | .halted => .halt t.exitCode
  | .error => .error t.lastError
  | .stopped => .ok
  | .running => .ok
  | .breakpoint => .ok

/-- The word `w` where the next step fetches, with all that takes (log 27): a terminal run state becomes Stopped, an
out-of-range `PC` becomes the entry point, and no breakpoint at `PC` stays enabled. -/
def State.placeAtFetch (s : State) (w : Word) : State :=
  let pc := if memWords ≤ s.pc.toNat then resetPc else s.pc
  { s with
    pc := pc
    mem := s.mem.write pc.toNat w
    runState := if s.runState = .halted ∨ s.runState = .error then .stopped else s.runState
    breakpoints := disableAt pc.toNat s.breakpoints }

end Sys2Proof.Machine
end

