-- ==== Sys2Proof/Machine/Step.lean ====
section
/-! DEFINITION. The step (40_execution_cycle.md R109), and the placing of an instruction where it fetches. -/

namespace Sys2Proof.Machine

/-- One step (40_execution_cycle.md R109). Every outcome the spec gives a step is a next state; `stepReport` tells
which of the four it was. -/
def step (s : State) : Host.Outcome State Fault Refusal :=
  match beforeExecute s with
  | .done _ t => .next t
  | .run i t => exec i t

/-- `s` with the instruction word `w` (its bits numbered as the opcode table numbers them) where `step` fetches. -/
def State.withFetchWord (s : State) (nbits w : Nat) : State := s.placeAtFetch (tableWord nbits w)

end Sys2Proof.Machine
end

