-- ==== Sys2Proof/Machine/Assembly.lean ====
section
/-! DEFINITION. The assembler text of an instruction (30_encoding.md R93, R95), and the operand field each operand
form is stored as. -/

namespace Sys2Proof

/-- The mnemonics as the source spells them, and NOP (30_encoding.md R93). -/
def Opcode.text : Opcode → String
  | .nop => "NOP"
  | .lda => "LDA"
  | .sta => "STA"
  | .add => "ADD"
  | .sub => "SUB"
  | .mul => "MUL"
  | .div => "DIV"
  | .and => "AND"
  | .or => "OR"
  | .xor => "XOR"
  | .cmp => "CMP"
  | .jmp => "JMP"
  | .jz => "JZ"
  | .jnz => "JNZ"
  | .jsr => "JSR"
  | .rts => "RTS"

/-- The operand forms of the assembler syntax (30_encoding.md R95; the spec's decision D23, log 31). -/
inductive OperandForm where
  /-- `#n`. -/
  | immediate (n : Int)
  /-- `n`. -/
  | direct (n : Nat)
  /-- `[n]`. -/
  | indirect (n : Nat)
  /-- `n,X`. -/
  | indexed (n : Nat)
  deriving DecidableEq, Repr

/-- The form that a mode and an operand field are written as (30_encoding.md R87, R95). -/
def OperandForm.ofFields (mode : Mode) (opd : BitVec 10) : OperandForm :=
  match mode with
  | .immediate => .immediate opd.toInt
  | .direct => .direct opd.toNat
  | .indirect => .indirect opd.toNat
  | .indexed => .indexed opd.toNat

/-- The mode of a form. -/
def OperandForm.mode : OperandForm → Mode
  | .immediate _ => .immediate
  | .direct _ => .direct
  | .indirect _ => .indirect
  | .indexed _ => .indexed

/-- The operand field of a form; an immediate "stored as `n mod 1024`" (30_encoding.md R95). -/
def OperandForm.opd : OperandForm → BitVec 10
  | .immediate n => BitVec.ofInt 10 n
  | .direct n => BitVec.ofNat 10 n
  | .indirect n => BitVec.ofNat 10 n
  | .indexed n => BitVec.ofNat 10 n

/-- The text of a form (30_encoding.md R95). -/
def OperandForm.text : OperandForm → String
  | .immediate n => "#" ++ toString n
  | .direct n => toString n
  | .indirect n => "[" ++ toString n ++ "]"
  | .indexed n => toString n ++ ",X"

/-- The text of an operand; none for a mode code with no entry, which the syntax cannot write. -/
def operandText (c : Config) (mode : BitVec 2) (opd : BitVec 10) : Option String :=
  (c.modeOf mode).map fun m => (OperandForm.ofFields m opd).text

/-- The assembler text of an instruction (30_encoding.md R93, R95). -/
def Instr.assembly (c : Config) (i : Instr) : Option String :=
  match i with
  | .nop => some i.opcode.text
  | .lda mode opd | .sta mode opd | .add mode opd | .sub mode opd | .mul mode opd | .div mode opd | .and mode opd
  | .or mode opd | .xor mode opd | .cmp mode opd => (operandText c mode opd).map fun t => i.opcode.text ++ " " ++ t
  | .jmp target | .jz target | .jnz target | .jsr target => some (i.opcode.text ++ " " ++ toString target.toNat)
  | .rtsReturn => some i.opcode.text
  | .rtsHalt code => some (i.opcode.text ++ " " ++ toString code.toNat)

/-- The disassembly of a word of memory, which the host may display (10_state.md R49). -/
def wordAssembly (c : Config) (w : Word) : Option String :=
  match decode c w with
  | .ok i => i.assembly c
  | .error _ => none

end Sys2Proof
end

