-- ==== Sys2Proof/Machine/HostActions.lean ====
section
/-! DEFINITION. The host's actions on the core between steps, but for `step`, `run` and the breakpoint unit's
(60_exceptions.md R263). `init` is `State.init`. -/

namespace Sys2Proof.Machine

/-- `reset`: every piece of state at its reset value but for the breakpoint table, which is kept
(70_reset_and_hazards.md R270; D20, log 18). -/
def State.resetKeepingTable (s : State) : State := (State.init s.cfg).setBreakpoints s.breakpoints

/-- Words stored at consecutive addresses from `base` on. -/
def loadWords : List Word → Nat → Memory → Memory
  | [], _, m => m
  | w :: ws, base, m => loadWords ws (base + 1) (m.write base w)

/-- The loader: word k of the program goes to `MEM[k]`; more than 1024 words cannot be loaded
(70_reset_and_hazards.md R275; base 0, D19, log 26). -/
def State.loadProgram (s : State) (ws : List Word) : Option State :=
  if ws.length ≤ memWords then some (s.setMem (loadWords ws 0 s.mem)) else none

/-- The host writes `X` (60_exceptions.md R263; D21, log 21). -/
def State.hostWriteX (s : State) (v : Word) : State := s.setX v

/-- The host enables or disables tracing (60_exceptions.md R263). -/
def State.setTrace (s : State) (on : Bool) : State := { s with traceEnabled := on }

/-- The host writes `debug_enabled`, which has no effect (10_state.md R45; D39, log 24). -/
def State.setDebug (s : State) (on : Bool) : State := { s with debugEnabled := on }

end Sys2Proof.Machine
end

