-- ==== Sys2Proof/Machine/RunLoop.lean ====
section
/-! DEFINITION. What a step reports to the host, and the host's run loop (40_execution_cycle.md R100; 60_exceptions.md
R255). -/

namespace Sys2Proof.Machine

/-- The outcome that a step from `s` returns to the host (40_execution_cycle.md R100, R109). An arm of `exec` that
refused its instruction would leave the report of a step that changed nothing; none does. -/
def stepReport (s : State) : StepReport :=
  match beforeExecute s with
  | .done r _ => r
  | .run i t =>
    match exec i t with
    | .next t' => reportAfter t'
    | .fault f => nomatch f
    | .refused _ => reportAfter t

/-- What `run` returns: a step outcome other than Ok, or that the budget ran out (60_exceptions.md R255; the name
`Exhausted` is the spec's decision D34, log 20). -/
inductive RunReport where
  | ended (r : StepReport)
  | exhausted
  /-- The model's own: a step refused its instruction. No arm of `exec` does. -/
  | refused (r : Refusal)
  deriving DecidableEq, Repr

/-- The loop of `run`: at most `budget` steps, then Stopped (60_exceptions.md R255). -/
def runLoop : Nat → State → RunReport × State
  | 0, s => (.exhausted, s.setRunState .stopped)
  | budget + 1, s =>
    match step s with
    | .next t => if stepReport s = .ok then runLoop budget t else (.ended (stepReport s), t)
    | .fault f => nomatch f
    | .refused r => (.refused r, s)

/-- `run(max_cycles)`: in a terminal state it changes nothing (60_exceptions.md R255; 90_conflicts.md C3; D17,
log 20). -/
def run (maxCycles : Nat) (s : State) : RunReport × State :=
  match s.runState with
  | .halted => (.ended (.halt s.exitCode), s)
  | .error => (.ended (.error s.lastError), s)
  | .stopped => runLoop maxCycles (s.setRunState .running)
  | .running => runLoop maxCycles (s.setRunState .running)
  | .breakpoint => runLoop maxCycles (s.setRunState .running)

end Sys2Proof.Machine
end

