-- ==== Sys2Proof/Machine/Trace.lean ====
section
/-! DEFINITION. The trace line of a step (60_exceptions.md R262). It is no state of the core: emitting it changes
nothing (40_execution_cycle.md R106). -/

namespace Sys2Proof.Machine

/-- What a trace line contains (60_exceptions.md R262); its text is out of scope (00_scope.md R6). -/
structure TraceLine where
  pc      : Word
  raw     : Word
  opcode  : Opcode
  /-- The mode code and operand; omitted for NOP and for RTS. -/
  operand : Option (BitVec 2 × BitVec 10)
  a       : Word
  x       : Word
  sp      : Word
  deriving DecidableEq, Repr

/-- The operand part of a trace line, "omitted for the no-operand opcode and for RTS" (60_exceptions.md R262). -/
def traceOperand (op : Opcode) (raw : Word) : Option (BitVec 2 × BitVec 10) :=
  if op = .nop ∨ op = .rts then none else some ((Fields.ofWord raw).mode, (Fields.ofWord raw).opd)

/-- The line that a step from `s` emits, if it emits one: after the decode, before the execute
(40_execution_cycle.md R106). Which `PC` it shows is not modelled by the spec: a free value (log 23). -/
def traceOf (s : State) : Option TraceLine :=
  match beforeExecute s with
  | .done _ _ => none
  | .run i t =>
    if t.traceEnabled then
      some { pc := if Config.traceShowsAdvancedPc then t.pc else s.pc
             raw := t.ir, opcode := i.opcode, operand := traceOperand i.opcode t.ir, a := t.a, x := t.x, sp := t.sp }
    else none

end Sys2Proof.Machine
end

