-- ==== Sys2Proof/Safety.lean ====
section
/-! DEFINITION. The terms the claims use: what an operand is, in the spec's words and not through the resolver; the
states a run can reach; safe runs. -/

namespace Sys2Proof.Machine

/-- The pointer of Indirect mode, read as a signed Word (41_addressing.md R123, D7). -/
abbrev pointerAt (opd : BitVec 10) (s : State) : Int := (s.mem.read opd.toNat).toInt

/-- The sum of Indexed mode (41_addressing.md R124). -/
abbrev indexSum (opd : BitVec 10) (s : State) : Nat := opd.toNat + s.x.toNat

/-- `v` is the value that `mode` and `opd` name in `s` (41_addressing.md R121 to R124). -/
abbrev ReadsOperand (s : State) (mode : BitVec 2) (opd : BitVec 10) (v : Word) : Prop :=
  (s.cfg.modeOf mode = some .immediate ∧ v = BitVec.signExtend 16 opd) ∨
  (s.cfg.modeOf mode = some .direct ∧ v = s.mem.read opd.toNat) ∨
  (s.cfg.modeOf mode = some .indirect ∧ 0 ≤ pointerAt opd s ∧ pointerAt opd s < 1024 ∧
    v = s.mem.read (pointerAt opd s).toNat) ∨
  (s.cfg.modeOf mode = some .indexed ∧ indexSum opd s < 1024 ∧ v = s.mem.read (indexSum opd s))

/-- `e` is the error that reading the operand raises (41_addressing.md R123 to R125, R127). -/
abbrev ReadFails (s : State) (mode : BitVec 2) (opd : BitVec 10) (e : ErrorCause) : Prop :=
  (s.cfg.modeOf mode = none ∧ e = .invalidAddressingMode mode) ∨
  (s.cfg.modeOf mode = some .indirect ∧ (pointerAt opd s < 0 ∨ 1024 ≤ pointerAt opd s) ∧
    e = .invalidAddress (pointerAt opd s)) ∨
  (s.cfg.modeOf mode = some .indexed ∧ 1024 ≤ indexSum opd s ∧ e = .invalidAddress (indexSum opd s))

/-- `a` is the address that `mode` and `opd` name in `s` for a store (41_addressing.md R122 to R124). -/
abbrev StoresTo (s : State) (mode : BitVec 2) (opd : BitVec 10) (a : Nat) : Prop :=
  (s.cfg.modeOf mode = some .direct ∧ a = opd.toNat) ∨
  (s.cfg.modeOf mode = some .indirect ∧ 0 ≤ pointerAt opd s ∧ pointerAt opd s < 1024 ∧
    a = (pointerAt opd s).toNat) ∨
  (s.cfg.modeOf mode = some .indexed ∧ indexSum opd s < 1024 ∧ a = indexSum opd s)

/-- `e` is the error that resolving the operand for a store raises (41_addressing.md R121, R123 to R125, R127). -/
abbrev StoreFails (s : State) (mode : BitVec 2) (opd : BitVec 10) (e : ErrorCause) : Prop :=
  (s.cfg.modeOf mode = some .immediate ∧ e = .cannotStoreToImmediate) ∨ ReadFails s mode opd e

/-- The nine instructions that read an operand value (41_addressing.md R120). -/
abbrev valueInstrs (mode : BitVec 2) (opd : BitVec 10) : List Instr :=
  [.lda mode opd, .add mode opd, .sub mode opd, .mul mode opd, .div mode opd, .and mode opd, .or mode opd,
   .xor mode opd, .cmp mode opd]

/-- `s` with the error `e` recorded at its `PC` and nothing else changed (60_exceptions.md R230). -/
abbrev Failed (s : State) (e : ErrorCause) : State :=
  { s with lastError := some { cause := e, pc := s.pc }, runState := .error }

/-- `s` with the fetch-phase writes made and nothing else changed (40_execution_cycle.md R104). -/
abbrev Fetched (s : State) : State :=
  { s with ir := s.mem.read s.pc.toNat, pc := s.pc + 1, cycleCount := s.cycleCount + 1 }

/-- No enabled breakpoint stands at `PC` (40_execution_cycle.md R102). -/
abbrev NoBreakpointAtPc (s : State) : Prop :=
  ∀ b ∈ s.breakpoints, ¬(b.enabled = true ∧ b.address.val = s.pc.toNat)

/-- The next step from `s` fetches an instruction (40_execution_cycle.md R101 to R104). -/
abbrev Fetches (s : State) : Prop := ¬ s.runState.Terminal ∧ NoBreakpointAtPc s ∧ s.pc.toNat < 1024

/-- The breakpoint table as 10_state.md R46 and 60_exceptions.md R256 have it: at most 32 slots, at most one enabled
slot for an address. -/
abbrev TableWf (bs : List Breakpoint) : Prop :=
  bs.length ≤ bpSlots ∧
  bs.Pairwise fun b b' => ¬(b.enabled = true ∧ b'.enabled = true ∧ b.address = b'.address)

/-- The states that `init`, steps and the host's actions can reach have these properties. -/
abbrev State.Inv (s : State) : Prop :=
  s.cfg.wf ∧
  s.mem.wf = true ∧
  s.sp.toNat ≤ s.cfg.stackTop.toNat ∧
  s.flags.c = s.flags.v ∧
  (s.runState = .error ↔ s.lastError.isSome = true) ∧
  (s.runState = .halted ↔ s.exitCode ≠ 0) ∧
  TableWf s.breakpoints

/-- `n` consecutive calls of `step`, stopping at one that is not a next state. -/
def steps : Nat → State → StepOutcome
  | 0, s => .next s
  | n + 1, s =>
    match step s with
    | .next t => steps n t
    | .fault f => .fault f
    | .refused r => .refused r

/-- Execute phases one after another, stopping at the first that is not a next state. -/
def execAll : List Instr → State → StepOutcome
  | [], s => .next s
  | i :: is, s =>
    match exec i s with
    | .next t => execAll is t
    | .fault f => .fault f
    | .refused r => .refused r

/-- A step that raises no error. -/
abbrev SafeStep (s : State) : Prop := ∀ r, stepReport s ≠ .error r

/-- `n` steps, none of which raises an error. -/
def SafeRun : Nat → State → Prop
  | 0, _ => True
  | n + 1, s => SafeStep s ∧ ∀ t, step s = .next t → SafeRun n t

end Sys2Proof.Machine
end

