-- ==== Sys2Proof/Certificates/Slice0/Obligations.lean ====
section
/-! DEFINITION. The statements for the provers. A docstring names the rule a statement formalises, and every decision
of the spec or of the model (log n) that a clause rests on. `exec` is the execute phase: its state has the fetch-phase
writes made, so its `pc` is the address of the instruction + 1 (40_execution_cycle.md R107, log 32). -/

open Sys2Proof Sys2Proof.Machine

/-! ### Encoding -/

/-- 30_encoding.md R86: bit extraction and packing are inverse both ways. The second half is the spec's own
derivation. -/
def Obligations.FieldsAndWordsAgreeBothWays : Prop :=
  (∀ f : Fields, Fields.ofWord f.toWord = f) ∧ ∀ w : Word, (Fields.ofWord w).toWord = w

/-- 30_encoding.md R85. -/
def Obligations.EncoderMasksItsInputs : Prop :=
  (∀ o m p : Int, ((encodeFields o m p).toNat : Int) = o % 16 * 4096 + m % 4 * 1024 + p % 1024) ∧
  ∀ o m : Int, (Fields.ofWord (encodeFields o m (-1))).opd = 0x3FF

/-- For every map of opcodes and every well-formed instruction with every operand, there is a word and it decodes to
the instruction. That the encoder puts 0 in unread fields is the spec's decision D28 (log 28). -/
def Obligations.DecodeOfEncodeIsTheInstruction : Prop :=
  ∀ (c : Config) (i : Instr), c.wf → i.wf c = true → ∃ w, encode c i = some w ∧ decode c w = .ok i

/-- 30_encoding.md R87. -/
def Obligations.ImmediateIsSignExtended : Prop :=
  (∀ w : Word, (Fields.ofWord w).imm.toInt =
    if w.toNat % 1024 < 512 then ((w.toNat % 1024 : Nat) : Int) else ((w.toNat % 1024 : Nat) : Int) - 1024) ∧
  (∀ opd : BitVec 10, -512 ≤ (sext10 opd).toInt ∧ (sext10 opd).toInt ≤ 511) ∧
  sext10 0x001 = 1 ∧ sext10 0x1FF = 511 ∧ (sext10 0x200).toInt = -512 ∧ (sext10 0x3FF).toInt = -1

/-- 30_encoding.md R89. -/
def Obligations.RtsSplitsOnItsOperand : Prop :=
  ∀ (c : Config) (w : Word), c.opcodeOf (Fields.ofWord w).opc = some .rts →
    ((Fields.ofWord w).opd = 0 → decode c w = .ok .rtsReturn) ∧
    ((Fields.ofWord w).opd ≠ 0 → decode c w = .ok (.rtsHalt (Fields.ofWord w).opd) ∧
      1 ≤ (Fields.ofWord w).opd.toNat ∧ (Fields.ofWord w).opd.toNat ≤ 1023)

/-- 30_encoding.md R90, under the default maps (the spec's decisions D1, D3; log 2, 3): every word is a legal
instruction, and every mode code is a mode. -/
def Obligations.EveryWordIsAnInstructionByDefault : Prop :=
  (∀ w : Word, ∃ i, decode defaultConfig w = .ok i ∧ i.wf defaultConfig = true) ∧
  ∀ mode : BitVec 2, ∃ m, defaultConfig.modeOf mode = some m

/-- 30_encoding.md R91: the fields an instruction does not read have no effect on what it decodes to (that NOP reads
none is the spec's decision D2, log 9). -/
def Obligations.UnreadFieldsDoNotMatter : Prop :=
  ∀ (c : Config) (w w' : Word), (Fields.ofWord w).opc = (Fields.ofWord w').opc →
    (c.opcodeOf (Fields.ofWord w).opc = some .nop → decode c w = decode c w') ∧
    ((Fields.ofWord w).opd = (Fields.ofWord w').opd →
      ∀ op ∈ [Opcode.jmp, .jz, .jnz, .jsr, .rts], c.opcodeOf (Fields.ofWord w).opc = some op →
        decode c w = decode c w')

/-- Whatever the decoder answers is a well-formed instruction of the same parameters, and where it rejects a word, the
word's opcode code has no entry (60_exceptions.md R227). -/
def Obligations.DecoderAnswersWellFormedInstructions : Prop :=
  ∀ (c : Config) (w : Word),
    (∀ i, decode c w = .ok i → i.wf c = true) ∧
    (∀ e, decode c w = .error e → e = .invalidOpcode (Fields.ofWord w).opc ∧ c.opcodeOf (Fields.ofWord w).opc = none)

/-- Words of spec/95_test_vectors.md and 30_encoding.md R97 under the default maps (D1, D3; log 2, 3). -/
def Obligations.WorkedWordsDecode : Prop :=
  decode defaultConfig 0x0000 = .ok .nop ∧ decode defaultConfig 0x100A = .ok (.lda 0 10) ∧
  decode defaultConfig 0x2464 = .ok (.sta 1 100) ∧ decode defaultConfig 0x8A00 = .ok (.or 2 512) ∧
  decode defaultConfig 0x6C10 = .ok (.div 3 16) ∧ decode defaultConfig 0xBC05 = .ok (.jmp 5) ∧
  decode defaultConfig 0xFC00 = .ok .rtsReturn ∧ decode defaultConfig 0xFFFF = .ok (.rtsHalt 1023)

/-! ### The step -/

/-- A step runs the decoded instruction, on the state with the fetch-phase writes made (40_execution_cycle.md R104,
R105, R107); `PC` does not wrap (R104). -/
def Obligations.StepRunsTheDecodedInstruction : Prop :=
  ∀ (s : State) (i : Instr), Fetches s → decode s.cfg (s.mem.read s.pc.toNat) = .ok i →
    step s = exec i (Fetched s) ∧ (Fetched s).pc.toNat = s.pc.toNat + 1

/-- 40_execution_cycle.md R101. -/
def Obligations.TerminalStatesDoNothing : Prop :=
  (∀ s : State, s.runState = .halted → step s = .next s ∧ stepReport s = .halt s.exitCode) ∧
  ∀ s : State, s.runState = .error → step s = .next s ∧ stepReport s = .error s.lastError

/-- 40_execution_cycle.md R102. -/
def Obligations.BreakpointStopsBeforeTheFetch : Prop :=
  ∀ (s : State) (k : Nat) (b : Breakpoint), ¬ s.runState.Terminal → TableWf s.breakpoints →
    s.breakpoints[k]? = some b → b.enabled = true → b.address.val = s.pc.toNat →
    step s = .next { s with breakpoints := s.breakpoints.set k { b with hitCount := b.hitCount + 1 },
                            runState := .breakpoint } ∧
    stepReport s = .breakpoint

/-- 60_exceptions.md R259: any number of consecutive steps, each of which returns Breakpoint and is a hit; and after
`remove` none stands at `PC`. That the count is exact for every number of steps is the spec's decision D26 (log 8). -/
def Obligations.EnabledBreakpointAlwaysRetriggers : Prop :=
  ∀ (s : State) (k : Nat) (b : Breakpoint), ¬ s.runState.Terminal → TableWf s.breakpoints →
    s.breakpoints[k]? = some b → b.enabled = true → b.address.val = s.pc.toNat →
    (∀ n : Nat, steps (n + 1) s =
      .next { s with breakpoints := s.breakpoints.set k { b with hitCount := b.hitCount + (n + 1) },
                     runState := .breakpoint }) ∧
    (∀ n : Nat, ∃ t, steps n s = .next t ∧ stepReport t = .breakpoint) ∧
    (s.removeBreakpoint b.address.val).1 = .removed ∧ NoBreakpointAtPc (s.removeBreakpoint b.address.val).2

/-- 60_exceptions.md R228: the fetch check. That it leaves `IR`, `PC` and `cycle_count` as they are is the spec's decision
D14, the recorded `PC` D13 (log 16). -/
def Obligations.FetchBeyondMemoryIsPcOutOfBounds : Prop :=
  ∀ s : State, ¬ s.runState.Terminal → 1024 ≤ s.pc.toNat →
    step s = .next (Failed s (.pcOutOfBounds s.pc)) ∧
    stepReport s = .error (some { cause := .pcOutOfBounds s.pc, pc := s.pc })

/-- 60_exceptions.md R227: raised at the decode, with the fetch phase already run. That the fetch-phase writes stand is
the spec's decision D12, the recorded `PC` D13 (log 16). Unreachable under the default map, D1 (log 2). -/
def Obligations.UnassignedOpcodeIsInvalidOpcode : Prop :=
  (∀ (s : State) (opc : BitVec 4), Fetches s → (Fields.ofWord (s.mem.read s.pc.toNat)).opc = opc →
    s.cfg.opcodeOf opc = none → step s = .next (Failed (Fetched s) (.invalidOpcode opc))) ∧
  ∀ opc : BitVec 4, ∃ op, defaultConfig.opcodeOf opc = some op

/-- Every step from every state is complete and ends in a next state (40_execution_cycle.md R110): the model neither
faults nor refuses (log 25). -/
def Obligations.EveryStepAnswersANextState : Prop := ∀ s : State, ∃ t, step s = .next t

/-- The four outcomes of a step against the run state it leaves (40_execution_cycle.md R100; 60_exceptions.md R250).
That an Ok step leaves the run state alone is the spec's decision D16 (log 17). -/
def Obligations.ReportMatchesTheNextState : Prop :=
  ∀ s t : State, step s = .next t →
    (stepReport s = .ok ∧ ¬ s.runState.Terminal ∧ t.runState = s.runState) ∨
    (stepReport s = .breakpoint ∧ ¬ s.runState.Terminal ∧ t.runState = .breakpoint) ∨
    (stepReport s = .halt t.exitCode ∧ t.runState = .halted) ∨
    (stepReport s = .error t.lastError ∧ t.runState = .error)

/-- 60_exceptions.md R229, R230: the state after an error is the state before the step, plus the fetch-phase writes if
the fetch ran, plus the error record. That the fetch-phase writes stand, and the recorded `PC`, are the spec's decisions
D12, D13, D14 (log 16). -/
def Obligations.ErrorsArePrecise : Prop :=
  ∀ s t : State, ¬ s.runState.Terminal → step s = .next t → t.runState = .error →
    (1024 ≤ s.pc.toNat ∧ t = Failed s (.pcOutOfBounds s.pc)) ∨
    (Fetches s ∧ ∃ e, t = Failed (Fetched s) e)

/-- 60_exceptions.md R233. That `run` too changes nothing in a terminal state is the spec's decision D17 (R255, conflict
C3; log 20). -/
def Obligations.NoReturnFromAnError : Prop :=
  (∀ (n : Nat) (s : State), s.runState = .error →
    steps n s = .next s ∧ stepReport s = .error s.lastError ∧
    run n s = (.ended (.error s.lastError), s)) ∧
  (∀ (n : Nat) (s : State), s.runState = .halted →
    steps n s = .next s ∧ stepReport s = .halt s.exitCode ∧
    run n s = (.ended (.halt s.exitCode), s)) ∧
  ∀ s : State, s.resetKeepingTable.runState = .stopped

/-- 45_no_operand.md R211, 40_execution_cycle.md R108 (D16, log 17): the run state after an instruction is the one
before, or Error with an error recorded at `PC` and nothing else changed, or, for the halt variant of RTS and it alone,
Halted. The recorded `PC` and that the fetch-phase writes stand are the spec's decisions D13, D12 (log 16). -/
def Obligations.OnlyRtsHaltHalts : Prop :=
  ∀ (i : Instr) (s t : State), exec i s = .next t →
    ((∃ code, i = .rtsHalt code) ∧ t.runState = .halted) ∨
    ((∀ code, i ≠ .rtsHalt code) ∧
      ((t.runState = s.runState ∧ t.lastError = s.lastError) ∨ ∃ e, t = Failed s e))

/-- 10_state.md R42: `cycle_count` counts fetches and nothing else. The unbounded counter is the spec's decision D26
(log 8); that a failed fetch check counts nothing and keeps `IR` is D14 (log 16). -/
def Obligations.CycleCountCountsFetches : Prop :=
  ∀ s t : State, step s = .next t →
    (Fetches s → t.cycleCount = s.cycleCount + 1) ∧
    (¬ Fetches s → t.cycleCount = s.cycleCount ∧ t.ir = s.ir ∧ t.pc = s.pc ∧ t.mem = s.mem)

/-! ### Operands -/

/-- 41_addressing.md R121 to R125 and R127: what the resolver answers in each mode, and when it raises what. The
16-bit `X` is the spec's decision D5 (log 5), the signed pointer D7 (log 14). -/
def Obligations.ResolverFollowsTheModes : Prop :=
  ∀ (s : State) (mode : BitVec 2) (opd : BitVec 10),
    (∀ v, resolveValue mode opd s = .ok v ↔ ReadsOperand s mode opd v) ∧
    (∀ e, resolveValue mode opd s = .error e ↔ ReadFails s mode opd e) ∧
    (∀ a, resolveAddr mode opd s = .ok a ↔ StoresTo s mode opd a) ∧
    (∀ e, resolveAddr mode opd s = .error e ↔ StoreFails s mode opd e) ∧
    ∀ a, resolveAddr mode opd s = .ok a → a < 1024

/-- 41_addressing.md R127, in all ten instructions that resolve an operand. The recorded `PC` and that the fetch-phase
writes stand are the spec's decisions D13, D12 (log 16); the last clause is the default map, D3 (log 3). -/
def Obligations.UnassignedModeIsInvalidAddressingMode : Prop :=
  (∀ (s : State) (mode : BitVec 2) (opd : BitVec 10), s.cfg.modeOf mode = none →
    ∀ i ∈ Instr.sta mode opd :: valueInstrs mode opd, exec i s = .next (Failed s (.invalidAddressingMode mode))) ∧
  ∀ mode : BitVec 2, defaultConfig.modeOf mode ≠ none

/-- 60_exceptions.md R223. The recorded `PC` and that the fetch-phase writes stand are the spec's decisions D13, D12
(log 16). -/
def Obligations.StoreThroughImmediateIsAnError : Prop :=
  ∀ (s : State) (mode : BitVec 2) (opd : BitVec 10), s.cfg.modeOf mode = some .immediate →
    exec (.sta mode opd) s = .next (Failed s .cannotStoreToImmediate)

/-- 41_addressing.md R123 to R125 with 60_exceptions.md R230: an operand that cannot be resolved takes the error path
and nothing of the instruction happens (the spec's decisions D5, D7, D12, D13; log 5, 14, 16). -/
def Obligations.OperandErrorsTakeTheErrorPath : Prop :=
  ∀ (s : State) (mode : BitVec 2) (opd : BitVec 10) (e : ErrorCause),
    (ReadFails s mode opd e → ∀ i ∈ valueInstrs mode opd, exec i s = .next (Failed s e)) ∧
    (StoreFails s mode opd e → exec (.sta mode opd) s = .next (Failed s e))

/-! ### Load, store and arithmetic -/

/-- 42_load_store.md R140; `C = V = false` is the spec's decision D9 (log 10). -/
def Obligations.LdaLoadsTheOperand : Prop :=
  ∀ (s : State) (mode : BitVec 2) (opd : BitVec 10) (v : Word), ReadsOperand s mode opd v →
    exec (.lda mode opd) s =
      .next { s with a := v, flags := { z := decide (v.toInt = 0), n := decide (v.toInt < 0), c := false, v := false } }

/-- 42_load_store.md R141; that no flag is written is the spec's decision D10 (log 11). -/
def Obligations.StaStoresTheAccumulator : Prop :=
  ∀ (s : State) (mode : BitVec 2) (opd : BitVec 10) (a : Nat), s.mem.wf = true → StoresTo s mode opd a →
    ∃ t, exec (.sta mode opd) s = .next t ∧ t = { s with mem := t.mem } ∧
      ∀ b, t.mem.read b = if b = a then s.a else s.mem.read b

/-- 43_alu.md R161, R170, R171, R172: `Z` and `N` from the exact integer are the spec's decision D30 (log 12). -/
def Obligations.AddSubMulComputeExactly : Prop :=
  ∀ (s : State) (mode : BitVec 2) (opd : BitVec 10) (v : Word), ReadsOperand s mode opd v →
    ∀ p ∈ [(Instr.add mode opd, s.a.toInt + v.toInt), (.sub mode opd, s.a.toInt - v.toInt),
           (.mul mode opd, s.a.toInt * v.toInt)],
      exec p.1 s = .next { s with
        a := BitVec.ofInt 16 p.2
        flags := { z := decide (p.2 = 0), n := decide (p.2 < 0)
                   c := decide (p.2 < -32768 ∨ 32767 < p.2), v := decide (p.2 < -32768 ∨ 32767 < p.2) } }

/-- 43_alu.md R166, R173: the quotient `q` that DIV writes leaves a remainder smaller than the divisor and of the
dividend's sign. Rounding toward zero is the spec's decision D11 (log 13), the source of `Z` and `N` D30 (log 12). -/
def Obligations.DivRoundsTowardZero : Prop :=
  ∀ (s : State) (mode : BitVec 2) (opd : BitVec 10) (v : Word), ReadsOperand s mode opd v → v.toInt ≠ 0 →
    ∃ q r : Int, s.a.toInt = q * v.toInt + r ∧ |r| < |v.toInt| ∧ (0 ≤ s.a.toInt → 0 ≤ r) ∧ (s.a.toInt ≤ 0 → r ≤ 0) ∧
      exec (.div mode opd) s = .next { s with
        a := BitVec.ofInt 16 q
        flags := { z := decide (q = 0), n := decide (q < 0), c := decide (q < -32768 ∨ 32767 < q)
                   v := decide (q < -32768 ∨ 32767 < q) } }

/-- 43_alu.md R167 and 60_exceptions.md R224: the operand is resolved, then its value is tested. That order is the
spec's decision D8, the recorded `PC` and that the fetch-phase writes stand D13, D12 (log 16). -/
def Obligations.DivByZeroIsAnError : Prop :=
  ∀ (s : State) (mode : BitVec 2) (opd : BitVec 10),
    (ReadsOperand s mode opd 0 → exec (.div mode opd) s = .next (Failed s .divisionByZero)) ∧
    ∀ e, ReadFails s mode opd e → exec (.div mode opd) s = .next (Failed s e) ∧ e ≠ .divisionByZero

/-- 43_alu.md R162, for the three logical instructions. -/
def Obligations.AndOrXorAreBitwise : Prop :=
  ∀ (s : State) (mode : BitVec 2) (opd : BitVec 10) (v : Word), ReadsOperand s mode opd v →
    ∀ p ∈ [(Instr.and mode opd, s.a &&& v), (.or mode opd, s.a ||| v), (.xor mode opd, s.a ^^^ v)],
      exec p.1 s = .next { s with
        a := p.2
        flags := { z := decide (p.2 = 0), n := p.2.getLsbD 15, c := false, v := false } }

/-- 43_alu.md R177: CMP leaves `A` alone, and its flags order `A` and the operand as signed integers, also where the
difference leaves the 16-bit range (the source of `Z` and `N` is the spec's decision D30, log 12). -/
def Obligations.CmpOrdersSignedIntegers : Prop :=
  ∀ (s : State) (mode : BitVec 2) (opd : BitVec 10) (v : Word), ReadsOperand s mode opd v →
    exec (.cmp mode opd) s = .next { s with
      flags := { z := decide (s.a = v), n := s.a.slt v
                 c := decide (s.a.toInt - v.toInt < -32768 ∨ 32767 < s.a.toInt - v.toInt)
                 v := decide (s.a.toInt - v.toInt < -32768 ∨ 32767 < s.a.toInt - v.toInt) } }

/-- 43_alu.md R164 for ADD, SUB and MUL: overflow is no error, the result wraps, and `C = V` says that it did. -/
def Obligations.OverflowWrapsAndIsFlagged : Prop :=
  ∀ (s : State) (mode : BitVec 2) (opd : BitVec 10) (v : Word), ReadsOperand s mode opd v →
    ∀ p ∈ [(Instr.add mode opd, s.a.toInt + v.toInt), (.sub mode opd, s.a.toInt - v.toInt),
           (.mul mode opd, s.a.toInt * v.toInt)],
      ∃ t, exec p.1 s = .next t ∧ t.runState = s.runState ∧ t.lastError = s.lastError ∧
        t.a.toInt = p.2.bmod 65536 ∧ t.flags.c = t.flags.v ∧ (t.flags.v = true ↔ t.a.toInt ≠ p.2)

/-! ### Control transfer -/

/-- 44_control.md R190, R191, R192; that no flag is written is the spec's decision D10 (log 11). -/
def Obligations.JumpsLoadThePc : Prop :=
  ∀ (s : State) (target : BitVec 10),
    exec (.jmp target) s = .next { s with pc := BitVec.ofNat 16 target.toNat } ∧
    exec (.jz target) s = .next { s with pc := if s.flags.z = true then BitVec.ofNat 16 target.toNat else s.pc } ∧
    exec (.jnz target) s = .next { s with pc := if s.flags.z = true then s.pc else BitVec.ofNat 16 target.toNat }

/-- 45_no_operand.md R210: a step at a word whose opcode is NOP changes `PC`, `IR` and `cycle_count` only. NOP itself
is the spec's decision D2 (log 9). -/
def Obligations.NopDoesNothingBeyondTheFetch : Prop :=
  (∀ s : State, exec .nop s = .next s) ∧
  ∀ s : State, Fetches s → s.cfg.opcodeOf (Fields.ofWord (s.mem.read s.pc.toNat)).opc = some .nop →
    step s = .next (Fetched s) ∧ stepReport s = .ok

/-- 44_control.md R194, with room on the stack: `MEM[SP] <- PC`, `SP <- SP - 1`, `PC <- opd`. That no flag is written
is the spec's decision D10 (log 11), the 16-bit return address D36 (log 5). -/
def Obligations.JsrPushesTheReturnAddress : Prop :=
  ∀ (s : State) (target : BitVec 10), s.mem.wf = true → s.sp ≠ 0 → s.sp.toNat ≤ 1023 →
    ∃ t, exec (.jsr target) s = .next t ∧ t.sp.toNat + 1 = s.sp.toNat ∧ t.pc.toNat = target.toNat ∧
      (∀ b, t.mem.read b = if b = s.sp.toNat then s.pc else s.mem.read b) ∧
      t = { s with mem := t.mem, sp := t.sp, pc := t.pc }

/-- 60_exceptions.md R225. The recorded `PC` and that the fetch-phase writes stand are the spec's decisions D13, D12
(log 16). -/
def Obligations.JsrWithoutRoomIsStackOverflow : Prop :=
  ∀ (s : State) (target : BitVec 10), s.sp = 0 → exec (.jsr target) s = .next (Failed s .stackOverflow)

/-- 44_control.md R197, with a pending call: `SP <- SP + 1`, `PC <- MEM[SP]`, unchecked (the spec's decision D6,
log 15; flags D10, log 11). -/
def Obligations.RtsReturnPopsThePc : Prop :=
  ∀ s : State, s.cfg.wf → s.sp.toNat < s.cfg.stackTop.toNat →
    exec .rtsReturn s = .next { s with sp := s.sp + 1, pc := s.mem.read (s.sp.toNat + 1) } ∧
    (s.sp + 1).toNat = s.sp.toNat + 1

/-- 60_exceptions.md R226. The recorded `PC` and that the fetch-phase writes stand are the spec's decisions D13, D12
(log 16). -/
def Obligations.RtsWithoutCallIsStackUnderflow : Prop :=
  ∀ s : State, s.cfg.stackTop.toNat ≤ s.sp.toNat → exec .rtsReturn s = .next (Failed s .stackUnderflow)

/-- 44_control.md R198: the instruction halts, the step reports Halt with the code. The unsigned code is the spec's
decision D18 (log 19). -/
def Obligations.RtsHaltHaltsWithItsCode : Prop :=
  (∀ (s : State) (code : BitVec 10), code ≠ 0 →
    exec (.rtsHalt code) s = .next { s with exitCode := code, runState := .halted }) ∧
  ∀ (s : State) (code : BitVec 10), Fetches s → decode s.cfg (s.mem.read s.pc.toNat) = .ok (.rtsHalt code) →
    stepReport s = .halt code

/-- 44_control.md R195: after a JSR executed with its `PC` advanced to the next instruction, an RTS return executed in
any state that kept `SP` and the pushed word comes back to exactly that `PC`; with no call pending, the return is a
stack underflow. The 16-bit saved word is the spec's decision D36 (log 5), that the return loads it unchecked D6 (log 15),
the `PC` that the underflow records D13 (log 16). -/
def Obligations.ReturnComesBackToTheCall : Prop :=
  (∀ (s : State) (target : BitVec 10), s.cfg.wf → s.mem.wf = true → s.sp ≠ 0 → s.sp.toNat ≤ s.cfg.stackTop.toNat →
    ∃ u, exec (.jsr target) s = .next u ∧
      ∀ w : State, w.cfg = u.cfg → w.sp = u.sp → w.mem.read s.sp.toNat = u.mem.read s.sp.toNat →
        ∃ t, exec .rtsReturn w = .next t ∧ t.pc = s.pc ∧ t.sp = s.sp) ∧
  ∀ s : State, s.sp = s.cfg.stackTop → exec .rtsReturn s = .next (Failed s .stackUnderflow)

/-- 90_conflicts.md C1 (the spec's decisions D4, D35; log 4; the `PC` recorded at the end D13, log 16): from
`SP = STACK_TOP`, at most `STACK_TOP` calls in a row
succeed, each taking one slot, and after exactly `STACK_TOP` of them the next raises StackOverflow. -/
def Obligations.ExactlyStackTopCallsFit : Prop :=
  ∀ (s : State) (targets : List (BitVec 10)), s.cfg.wf → s.sp = s.cfg.stackTop →
    targets.length ≤ s.cfg.stackTop.toNat →
    ∃ t, execAll (targets.map Instr.jsr) s = .next t ∧ t.sp.toNat + targets.length = s.cfg.stackTop.toNat ∧
      t.runState = s.runState ∧ t.lastError = s.lastError ∧
      (targets.length = s.cfg.stackTop.toNat →
        ∀ target, exec (.jsr target) t = .next (Failed t .stackOverflow))

/-! ### Frames -/

/-- What the nine operand-reading instructions leave alone, on every path (41_addressing.md R128; 10_state.md R40). On
the error path `A` and the flags are unchanged too; that the fetch-phase writes stand there is the spec's decision D12
(log 16). -/
def Obligations.ValueInstructionsFrame : Prop :=
  ∀ (s t : State) (mode : BitVec 2) (opd : BitVec 10), ∀ i ∈ valueInstrs mode opd, exec i s = .next t →
    (∀ b, t.mem.read b = s.mem.read b) ∧ t.mem = s.mem ∧ t.pc = s.pc ∧ t.sp = s.sp ∧ t.x = s.x ∧ t.ir = s.ir ∧
    t.cycleCount = s.cycleCount ∧ t.exitCode = s.exitCode ∧ t.debugEnabled = s.debugEnabled ∧
    t.traceEnabled = s.traceEnabled ∧ t.breakpoints = s.breakpoints ∧ t.cfg = s.cfg ∧
    (i = .cmp mode opd → t.a = s.a) ∧
    ((t.runState = s.runState ∧ t.lastError = s.lastError) ∨ (t.runState = .error ∧ t.a = s.a ∧ t.flags = s.flags))

/-- What STA leaves alone: every register and flag (D10, log 11), and every word of memory but the one at the address
that the resolver gives, or all of memory where the resolver raises (the fetch-phase writes stand there: D12, log 16). -/
def Obligations.StaFrame : Prop :=
  ∀ (s t : State) (mode : BitVec 2) (opd : BitVec 10), exec (.sta mode opd) s = .next t →
    t.a = s.a ∧ t.flags = s.flags ∧ t.pc = s.pc ∧ t.sp = s.sp ∧ t.x = s.x ∧ t.ir = s.ir ∧
    t.cycleCount = s.cycleCount ∧ t.exitCode = s.exitCode ∧ t.debugEnabled = s.debugEnabled ∧
    t.traceEnabled = s.traceEnabled ∧ t.breakpoints = s.breakpoints ∧ t.cfg = s.cfg ∧
    (∀ a, resolveAddr mode opd s = .ok a →
      t.runState = s.runState ∧ t.lastError = s.lastError ∧ ∀ b, b ≠ a → t.mem.read b = s.mem.read b) ∧
    (∀ e, resolveAddr mode opd s = .error e → t.runState = .error ∧ ∀ b, t.mem.read b = s.mem.read b)

/-- What the control transfers and NOP leave alone (10_state.md R40, D10, log 11). `SP` may change in JSR and RTS return
only, `exit_code` in RTS halt only, memory in JSR only and there at the address `SP` only. That the fetch-phase
writes stand on the error path is D12 (log 16). -/
def Obligations.ControlFrame : Prop :=
  ∀ (s t : State) (target code : BitVec 10),
    ∀ i ∈ [Instr.nop, .jmp target, .jz target, .jnz target, .jsr target, .rtsReturn, .rtsHalt code],
      exec i s = .next t →
        t.a = s.a ∧ t.flags = s.flags ∧ t.x = s.x ∧ t.ir = s.ir ∧ t.cycleCount = s.cycleCount ∧
        t.debugEnabled = s.debugEnabled ∧ t.traceEnabled = s.traceEnabled ∧ t.breakpoints = s.breakpoints ∧
        t.cfg = s.cfg ∧
        (i ≠ .rtsHalt code → t.exitCode = s.exitCode) ∧
        (i ≠ .jsr target → i ≠ .rtsReturn → t.sp = s.sp ∧ t.lastError = s.lastError) ∧
        (t.lastError = s.lastError ∨ t.runState = .error ∧ t.sp = s.sp ∧ t.pc = s.pc ∧ t.mem = s.mem) ∧
        ∀ b, (i = .jsr target → b ≠ s.sp.toNat) → t.mem.read b = s.mem.read b

/-- 10_state.md R32, R45, R46: what no step writes. That only the host writes these is the spec's decision D21
(log 21); the parameters are the model's field (log 1). -/
def Obligations.StepsNeverWriteHostState : Prop :=
  ∀ s t : State, step s = .next t →
    t.x = s.x ∧ t.debugEnabled = s.debugEnabled ∧ t.traceEnabled = s.traceEnabled ∧ t.cfg = s.cfg ∧
    t.breakpoints.map (fun b => (b.address, b.enabled, b.condition)) =
      s.breakpoints.map (fun b => (b.address, b.enabled, b.condition))

/-! ### What is not read -/

/-- 10_state.md R39: `Z` is read by JZ and JNZ only; no instruction reads `N`, `C` or `V`. Two states that differ in
unread flags execute alike in everything but the flags an instruction keeps. -/
def Obligations.FlagReadersAreJzAndJnz : Prop :=
  ∀ (i : Instr) (s : State) (f : Flags),
    ((∃ target, i = .jz target ∨ i = .jnz target) → f.z = s.flags.z) →
    ∃ t t', exec i s = .next t ∧ exec i { s with flags := f } = .next t' ∧ t' = { t with flags := t'.flags } ∧
      (t'.flags = t.flags ∨ t.flags = s.flags ∧ t'.flags = f)

/-- 10_state.md R33: the fetch latches the word, and no instruction reads `IR`. -/
def Obligations.IrIsLatchedAndNotRead : Prop :=
  (∀ s t : State, Fetches s → step s = .next t → t.ir = s.mem.read s.pc.toNat) ∧
  ∀ (i : Instr) (s : State) (w : Word),
    ∃ t, exec i s = .next t ∧ exec i { s with ir := w } = .next { t with ir := w }

/-- 10_state.md R45, 40_execution_cycle.md R106: the enables change no step. That `debug_enabled` has no effect is the
spec's decision D39 (log 24). -/
def Obligations.EnablesChangeNoStep : Prop :=
  ∀ (s : State) (debug trace : Bool), ∃ t, step s = .next t ∧
    step { s with debugEnabled := debug, traceEnabled := trace } =
      .next { t with debugEnabled := debug, traceEnabled := trace } ∧
    stepReport { s with debugEnabled := debug, traceEnabled := trace } = stepReport s

/-! ### Errors, reset and invariants -/

/-- 60_exceptions.md R220, "raised by": in the states of the invariant, an instruction that records an error does so for
one of these causes (the pointer's sign is D7, log 14; the recorded `PC` D13, log 16). -/
def Obligations.ErrorsHaveTheListedCauses : Prop :=
  ∀ (i : Instr) (s : State) (e : ErrorCause), s.Inv → s.runState ≠ .error → exec i s = .next (Failed s e) →
    (∃ mode opd, i ∈ valueInstrs mode opd ∧ ReadFails s mode opd e) ∨
    (∃ mode opd, i = .sta mode opd ∧ StoreFails s mode opd e) ∨
    (∃ mode opd, i = .div mode opd ∧ ReadsOperand s mode opd 0 ∧ e = .divisionByZero) ∨
    (∃ target, i = .jsr target ∧ s.sp = 0 ∧ e = .stackOverflow) ∨
    (i = .rtsReturn ∧ s.cfg.stackTop.toNat ≤ s.sp.toNat ∧ e = .stackUnderflow)

/-- 70_reset_and_hazards.md R270, R271: what reset leaves, from any state, and the model's `State.reset`. The values
other than `SP` and the run state are the spec's decision D19 (log 6), the kept table D20 (log 18), 1023 D4 (log 4). -/
def Obligations.ResetLeavesTheListedValues : Prop :=
  (∀ s : State, ∃ t, s.resetKeepingTable = t ∧ t.pc = 0 ∧ t.sp = s.cfg.stackTop ∧ t.a = 0 ∧ t.x = 0 ∧ t.ir = 0 ∧
    t.flags = { z := false, n := false, c := false, v := false } ∧ (∀ b, t.mem.read b = 0) ∧
    t.runState = .stopped ∧ t.cycleCount = 0 ∧ t.lastError = none ∧ t.exitCode = 0 ∧ t.debugEnabled = false ∧
    t.traceEnabled = false ∧ t.breakpoints = s.breakpoints ∧ t.cfg = s.cfg) ∧
  State.reset.sp = 1023 ∧ State.reset.breakpoints = [] ∧ State.reset.resetKeepingTable = State.reset

/-- The invariant holds after reset. -/
def Obligations.ResetMeetsTheInvariant : Prop := State.reset.Inv

/-- From every state of the invariant, a step leads to a state of the invariant: the parameters stay maps, memory keeps
its canonical form, `SP` stays within `STACK_TOP` (10_state.md R36), `C = V` (R38), an error is recorded exactly in
Error (60_exceptions.md R230), the exit code is set exactly in Halted (10_state.md R44), and the breakpoint table stays
as 10_state.md R46 has it. -/
def Obligations.StepKeepsTheInvariant : Prop := ∀ s t : State, s.Inv → step s = .next t → t.Inv

/-- Every action of the host (60_exceptions.md R263) keeps the invariant, `run` included. -/
def Obligations.HostActionsKeepTheInvariant : Prop :=
  ∀ s : State, s.Inv →
    s.resetKeepingTable.Inv ∧ (∀ ws t, s.loadProgram ws = some t → t.Inv) ∧ (∀ v, (s.hostWriteX v).Inv) ∧
    (∀ on, (s.setTrace on).Inv) ∧ (∀ on, (s.setDebug on).Inv) ∧ (∀ a, (s.addBreakpoint a).2.Inv) ∧
    (∀ a, (s.removeBreakpoint a).2.Inv) ∧ ∀ n, (run n s).2.Inv

/-! ### The host's actions -/

/-- 60_exceptions.md R256: the five outcomes of `add`. The reused slot and its zeroed count are the spec's decision D31,
that a rejection changes nothing D33 (log 22). -/
def Obligations.AddTakesTheFirstFreeSlot : Prop :=
  (∀ (s : State) (a : Int), a < 0 ∨ 1024 ≤ a → s.addBreakpoint a = (.rejectedInvalidAddress a, s)) ∧
  ∀ (s : State) (a : Fin 1024),
    ((∃ b ∈ s.breakpoints, b.enabled = true ∧ b.address = a) → s.addBreakpoint a.val = (.rejectedDuplicate, s)) ∧
    ((∀ b ∈ s.breakpoints, ¬(b.enabled = true ∧ b.address = a)) →
      (∀ (k : Nat) (old : Breakpoint), s.breakpoints[k]? = some old → old.enabled = false →
        (∀ (j : Nat) (b : Breakpoint), j < k → s.breakpoints[j]? = some b → b.enabled = true) →
        s.addBreakpoint a.val = (.added, { s with
          breakpoints := s.breakpoints.set k { address := a, enabled := true, hitCount := 0, condition := "" } })) ∧
      ((∀ b ∈ s.breakpoints, b.enabled = true) →
        (s.breakpoints.length < 32 → s.addBreakpoint a.val = (.added, { s with
          breakpoints := s.breakpoints ++ [{ address := a, enabled := true, hitCount := 0, condition := "" }] })) ∧
        (32 ≤ s.breakpoints.length → s.addBreakpoint a.val = (.rejectedResourceFull, s))))

/-- 60_exceptions.md R257: `remove` disables the matching enabled slot and keeps the rest of it; with no match nothing
changes (the spec's decision D32, log 22). -/
def Obligations.RemoveDisablesTheSlot : Prop :=
  ∀ (s : State) (a : Int),
    (∀ (k : Nat) (b : Breakpoint), TableWf s.breakpoints → s.breakpoints[k]? = some b → b.enabled = true →
      (b.address.val : Int) = a →
      s.removeBreakpoint a =
        (.removed, { s with breakpoints := s.breakpoints.set k { b with enabled := false } })) ∧
    ((∀ b ∈ s.breakpoints, ¬(b.enabled = true ∧ (b.address.val : Int) = a)) → s.removeBreakpoint a = (.notFound, s))

/-- 70_reset_and_hazards.md R275: word k of a program goes to `MEM[k]`, all else stays; a longer program is not loaded.
Base 0 is the spec's decision D19 (log 26). -/
def Obligations.LoaderPlacesTheProgram : Prop :=
  ∀ (s : State) (ws : List Word), s.mem.wf = true →
    (ws.length ≤ 1024 → ∃ t, s.loadProgram ws = some t ∧ t = { s with mem := t.mem } ∧
      (∀ (k : Nat) (w : Word), ws[k]? = some w → t.mem.read k = w) ∧
      ∀ b, ws.length ≤ b → t.mem.read b = s.mem.read b) ∧
    (1024 < ws.length → s.loadProgram ws = none)

/-- 60_exceptions.md R255: the loop law (a budget of 0 only sets Stopped; a larger one takes one step from Running and
goes on with the rest of the budget exactly after an Ok step), what `run` returns, and the run state it leaves. The name
Exhausted is the spec's decision D34, `run` in a terminal state (NoReturnFromAnError) D17 (log 20). -/
def Obligations.RunEndsAsItReports : Prop :=
  (∀ s : State, ¬ s.runState.Terminal → run 0 s = (.exhausted, { s with runState := .stopped })) ∧
  (∀ (n : Nat) (s t : State), ¬ s.runState.Terminal → step { s with runState := .running } = .next t →
    (stepReport { s with runState := .running } = .ok → run (n + 1) s = run n t) ∧
    (stepReport { s with runState := .running } ≠ .ok →
      run (n + 1) s = (.ended (stepReport { s with runState := .running }), t))) ∧
  ∀ (n : Nat) (s : State), ∃ t, (run n s).2 = t ∧
    (((run n s).1 = .exhausted ∧ t.runState = .stopped) ∨
     ((run n s).1 = .ended .breakpoint ∧ t.runState = .breakpoint) ∨
     ((run n s).1 = .ended (.halt t.exitCode) ∧ t.runState = .halted) ∨
     ((run n s).1 = .ended (.error t.lastError) ∧ t.runState = .error)) ∧
    s.cycleCount ≤ t.cycleCount ∧ t.cycleCount ≤ s.cycleCount + n

/-- A run of safe steps never ends in Error (60_exceptions.md R230). -/
def Obligations.SafeRunsStayOutOfError : Prop :=
  ∀ (n : Nat) (s : State), s.runState ≠ .error → SafeRun n s →
    ∃ t, steps n s = .next t ∧ t.runState ≠ .error

/-- 60_exceptions.md R262, 40_execution_cycle.md R106: which steps emit a trace line, and each field of it. The `PC` it
shows is a free value (D37, log 23): the fetch address or the advanced one. -/
def Obligations.TraceLineHoldsTheListedFields : Prop :=
  (∀ (s : State) (i : Instr), Fetches s → decode s.cfg (s.mem.read s.pc.toNat) = .ok i →
    (s.traceEnabled = false → traceOf s = none) ∧
    (s.traceEnabled = true → ∃ l, traceOf s = some l ∧ l.raw = s.mem.read s.pc.toNat ∧ l.opcode = i.opcode ∧
      (l.pc = s.pc ∨ l.pc = s.pc + 1) ∧ l.a = s.a ∧ l.x = s.x ∧ l.sp = s.sp ∧
      (i.opcode = .nop ∨ i.opcode = .rts → l.operand = none) ∧
      (i.opcode ≠ .nop → i.opcode ≠ .rts → l.operand =
        some ((Fields.ofWord (s.mem.read s.pc.toNat)).mode, (Fields.ofWord (s.mem.read s.pc.toNat)).opd)))) ∧
  (∀ s : State, ¬ Fetches s → traceOf s = none) ∧
  ∀ (s : State) (e : DecodeError), Fetches s → decode s.cfg (s.mem.read s.pc.toNat) = .error e → traceOf s = none
end

