-- ==== Sys2Proof/Laws/Memory.lean ====
section
/-! SUPPORT. The laws of the memory array: read after write, and that every operation keeps the canonical form. -/

namespace Sys2Proof.Machine

theorem Memory.wfFrom_cons {low b : Nat} {u : Word} {rest : Memory} :
    Memory.wfFrom low ((b, u) :: rest) = true ↔
      low ≤ b ∧ b < memWords ∧ u ≠ resetMemWord ∧ Memory.wfFrom (b + 1) rest = true := by
  simp [Memory.wfFrom, and_assoc]

theorem Memory.wfFrom_weaken {low low' : Nat} {m : Memory} (h : Memory.wfFrom low m = true) (hle : low' ≤ low) :
    Memory.wfFrom low' m = true := by
  cases m with
  | nil => rfl
  | cons e rest =>
    obtain ⟨hlow, hb, hu, hrest⟩ := Memory.wfFrom_cons.mp h
    exact Memory.wfFrom_cons.mpr ⟨by omega, hb, hu, hrest⟩

/-- An address below every listed one reads as a word that nothing has written. -/
theorem Memory.read_below {m : Memory} {low a : Nat} (h : Memory.wfFrom low m = true) (ha : a < low) :
    m.read a = resetMemWord := by
  induction m generalizing low with
  | nil => rfl
  | cons e rest ih =>
    obtain ⟨hlow, -, -, hrest⟩ := Memory.wfFrom_cons.mp h
    have hne : a ≠ e.1 := by omega
    simp [Memory.read, hne, ih hrest (by omega)]

theorem Memory.read_write_same_from {m : Memory} {low a : Nat} {v : Word} (h : Memory.wfFrom low m = true) :
    (m.write a v).read a = v := by
  induction m generalizing low with
  | nil => by_cases hv : v = resetMemWord <;> simp [Memory.write, Memory.read, hv]
  | cons e rest ih =>
    obtain ⟨-, -, -, hrest⟩ := Memory.wfFrom_cons.mp h
    have hgap : a ≤ e.1 → Memory.read rest a = resetMemWord := fun _ => Memory.read_below hrest (by omega)
    simp only [Memory.write]
    split
    · have hne : a ≠ e.1 := by omega
      split
      · simp [Memory.read, hgap (by omega), *]
      · simp [Memory.read]
    · split
      · split
        · rw [hgap (by omega), ‹v = resetMemWord›]
        · simp [Memory.read]
      · simp [Memory.read, ih hrest, *]

/-- A read gives the word last written there. -/
theorem Memory.read_write_same {m : Memory} {a : Nat} {v : Word} (h : m.wf = true) : (m.write a v).read a = v :=
  Memory.read_write_same_from h

/-- A write leaves every other address alone. -/
theorem Memory.read_write_other {m : Memory} {a b : Nat} {v : Word} (hne : b ≠ a) :
    (m.write a v).read b = m.read b := by
  induction m with
  | nil => by_cases hv : v = resetMemWord <;> simp [Memory.write, Memory.read, hv, hne]
  | cons e rest ih =>
    simp only [Memory.write]
    split
    · split <;> simp [Memory.read, hne]
    · split
      · split <;> simp_all [Memory.read]
      · simp [Memory.read, ih]

theorem Memory.wfFrom_write {m : Memory} {low a : Nat} {v : Word} (h : Memory.wfFrom low m = true) (hlow : low ≤ a)
    (ha : a < memWords) : Memory.wfFrom low (m.write a v) = true := by
  induction m generalizing low with
  | nil => by_cases hv : v = resetMemWord <;> simp [Memory.write, Memory.wfFrom, hv, hlow, ha]
  | cons e rest ih =>
    obtain ⟨hlb, hb, hu, hrest⟩ := Memory.wfFrom_cons.mp h
    simp only [Memory.write]
    split
    · split
      · exact h
      · exact Memory.wfFrom_cons.mpr ⟨hlow, ha, ‹_›, Memory.wfFrom_cons.mpr ⟨by omega, hb, hu, hrest⟩⟩
    · split
      · split
        · exact Memory.wfFrom_weaken hrest (by omega)
        · exact Memory.wfFrom_cons.mpr ⟨hlow, ha, ‹_›, by simp_all⟩
      · exact Memory.wfFrom_cons.mpr ⟨hlb, hb, hu, ih hrest (by omega)⟩

/-- Every write inside memory keeps the canonical form. -/
theorem Memory.wf_write {m : Memory} {a : Nat} {v : Word} (h : m.wf = true) (ha : a < memWords) :
    (m.write a v).wf = true :=
  Memory.wfFrom_write h (Nat.zero_le a) ha

/-- The loader keeps the canonical form. -/
theorem Memory.wf_loadWords {ws : List Word} {base : Nat} {m : Memory} (h : m.wf = true)
    (hfit : base + ws.length ≤ memWords) : (loadWords ws base m).wf = true := by
  induction ws generalizing base m with
  | nil => exact h
  | cons w ws ih =>
    simp only [List.length_cons] at hfit
    exact ih (Memory.wf_write h (by omega)) (by omega)

/-- Reset memory has the canonical form. -/
theorem Memory.wf_reset : State.reset.mem.wf = true := rfl

end Sys2Proof.Machine
end

