-- ==== Sys2Proof/Laws/State.lean ====
section
/-! SUPPORT. What each named update of State does to each field, so that no proof unfolds a record update. -/

namespace Sys2Proof.Machine

variable (s : State)

/-! ### `State.setPc` -/

@[simp] theorem State.setPc_cfg (v : Word) : (s.setPc v).cfg = s.cfg := rfl
@[simp] theorem State.setPc_pc (v : Word) : (s.setPc v).pc = v := rfl
@[simp] theorem State.setPc_sp (v : Word) : (s.setPc v).sp = s.sp := rfl
@[simp] theorem State.setPc_a (v : Word) : (s.setPc v).a = s.a := rfl
@[simp] theorem State.setPc_x (v : Word) : (s.setPc v).x = s.x := rfl
@[simp] theorem State.setPc_ir (v : Word) : (s.setPc v).ir = s.ir := rfl
@[simp] theorem State.setPc_flags (v : Word) : (s.setPc v).flags = s.flags := rfl
@[simp] theorem State.setPc_mem (v : Word) : (s.setPc v).mem = s.mem := rfl
@[simp] theorem State.setPc_runState (v : Word) : (s.setPc v).runState = s.runState := rfl
@[simp] theorem State.setPc_cycleCount (v : Word) : (s.setPc v).cycleCount = s.cycleCount := rfl
@[simp] theorem State.setPc_lastError (v : Word) : (s.setPc v).lastError = s.lastError := rfl
@[simp] theorem State.setPc_exitCode (v : Word) : (s.setPc v).exitCode = s.exitCode := rfl
@[simp] theorem State.setPc_debugEnabled (v : Word) : (s.setPc v).debugEnabled = s.debugEnabled := rfl
@[simp] theorem State.setPc_traceEnabled (v : Word) : (s.setPc v).traceEnabled = s.traceEnabled := rfl
@[simp] theorem State.setPc_breakpoints (v : Word) : (s.setPc v).breakpoints = s.breakpoints := rfl

/-! ### `State.setSp` -/

@[simp] theorem State.setSp_cfg (v : Word) : (s.setSp v).cfg = s.cfg := rfl
@[simp] theorem State.setSp_pc (v : Word) : (s.setSp v).pc = s.pc := rfl
@[simp] theorem State.setSp_sp (v : Word) : (s.setSp v).sp = v := rfl
@[simp] theorem State.setSp_a (v : Word) : (s.setSp v).a = s.a := rfl
@[simp] theorem State.setSp_x (v : Word) : (s.setSp v).x = s.x := rfl
@[simp] theorem State.setSp_ir (v : Word) : (s.setSp v).ir = s.ir := rfl
@[simp] theorem State.setSp_flags (v : Word) : (s.setSp v).flags = s.flags := rfl
@[simp] theorem State.setSp_mem (v : Word) : (s.setSp v).mem = s.mem := rfl
@[simp] theorem State.setSp_runState (v : Word) : (s.setSp v).runState = s.runState := rfl
@[simp] theorem State.setSp_cycleCount (v : Word) : (s.setSp v).cycleCount = s.cycleCount := rfl
@[simp] theorem State.setSp_lastError (v : Word) : (s.setSp v).lastError = s.lastError := rfl
@[simp] theorem State.setSp_exitCode (v : Word) : (s.setSp v).exitCode = s.exitCode := rfl
@[simp] theorem State.setSp_debugEnabled (v : Word) : (s.setSp v).debugEnabled = s.debugEnabled := rfl
@[simp] theorem State.setSp_traceEnabled (v : Word) : (s.setSp v).traceEnabled = s.traceEnabled := rfl
@[simp] theorem State.setSp_breakpoints (v : Word) : (s.setSp v).breakpoints = s.breakpoints := rfl

/-! ### `State.setA` -/

@[simp] theorem State.setA_cfg (v : Word) : (s.setA v).cfg = s.cfg := rfl
@[simp] theorem State.setA_pc (v : Word) : (s.setA v).pc = s.pc := rfl
@[simp] theorem State.setA_sp (v : Word) : (s.setA v).sp = s.sp := rfl
@[simp] theorem State.setA_a (v : Word) : (s.setA v).a = v := rfl
@[simp] theorem State.setA_x (v : Word) : (s.setA v).x = s.x := rfl
@[simp] theorem State.setA_ir (v : Word) : (s.setA v).ir = s.ir := rfl
@[simp] theorem State.setA_flags (v : Word) : (s.setA v).flags = s.flags := rfl
@[simp] theorem State.setA_mem (v : Word) : (s.setA v).mem = s.mem := rfl
@[simp] theorem State.setA_runState (v : Word) : (s.setA v).runState = s.runState := rfl
@[simp] theorem State.setA_cycleCount (v : Word) : (s.setA v).cycleCount = s.cycleCount := rfl
@[simp] theorem State.setA_lastError (v : Word) : (s.setA v).lastError = s.lastError := rfl
@[simp] theorem State.setA_exitCode (v : Word) : (s.setA v).exitCode = s.exitCode := rfl
@[simp] theorem State.setA_debugEnabled (v : Word) : (s.setA v).debugEnabled = s.debugEnabled := rfl
@[simp] theorem State.setA_traceEnabled (v : Word) : (s.setA v).traceEnabled = s.traceEnabled := rfl
@[simp] theorem State.setA_breakpoints (v : Word) : (s.setA v).breakpoints = s.breakpoints := rfl

/-! ### `State.setX` -/

@[simp] theorem State.setX_cfg (v : Word) : (s.setX v).cfg = s.cfg := rfl
@[simp] theorem State.setX_pc (v : Word) : (s.setX v).pc = s.pc := rfl
@[simp] theorem State.setX_sp (v : Word) : (s.setX v).sp = s.sp := rfl
@[simp] theorem State.setX_a (v : Word) : (s.setX v).a = s.a := rfl
@[simp] theorem State.setX_x (v : Word) : (s.setX v).x = v := rfl
@[simp] theorem State.setX_ir (v : Word) : (s.setX v).ir = s.ir := rfl
@[simp] theorem State.setX_flags (v : Word) : (s.setX v).flags = s.flags := rfl
@[simp] theorem State.setX_mem (v : Word) : (s.setX v).mem = s.mem := rfl
@[simp] theorem State.setX_runState (v : Word) : (s.setX v).runState = s.runState := rfl
@[simp] theorem State.setX_cycleCount (v : Word) : (s.setX v).cycleCount = s.cycleCount := rfl
@[simp] theorem State.setX_lastError (v : Word) : (s.setX v).lastError = s.lastError := rfl
@[simp] theorem State.setX_exitCode (v : Word) : (s.setX v).exitCode = s.exitCode := rfl
@[simp] theorem State.setX_debugEnabled (v : Word) : (s.setX v).debugEnabled = s.debugEnabled := rfl
@[simp] theorem State.setX_traceEnabled (v : Word) : (s.setX v).traceEnabled = s.traceEnabled := rfl
@[simp] theorem State.setX_breakpoints (v : Word) : (s.setX v).breakpoints = s.breakpoints := rfl

/-! ### `State.setFlags` -/

@[simp] theorem State.setFlags_cfg (f : Flags) : (s.setFlags f).cfg = s.cfg := rfl
@[simp] theorem State.setFlags_pc (f : Flags) : (s.setFlags f).pc = s.pc := rfl
@[simp] theorem State.setFlags_sp (f : Flags) : (s.setFlags f).sp = s.sp := rfl
@[simp] theorem State.setFlags_a (f : Flags) : (s.setFlags f).a = s.a := rfl
@[simp] theorem State.setFlags_x (f : Flags) : (s.setFlags f).x = s.x := rfl
@[simp] theorem State.setFlags_ir (f : Flags) : (s.setFlags f).ir = s.ir := rfl
@[simp] theorem State.setFlags_flags (f : Flags) : (s.setFlags f).flags = f := rfl
@[simp] theorem State.setFlags_mem (f : Flags) : (s.setFlags f).mem = s.mem := rfl
@[simp] theorem State.setFlags_runState (f : Flags) : (s.setFlags f).runState = s.runState := rfl
@[simp] theorem State.setFlags_cycleCount (f : Flags) : (s.setFlags f).cycleCount = s.cycleCount := rfl
@[simp] theorem State.setFlags_lastError (f : Flags) : (s.setFlags f).lastError = s.lastError := rfl
@[simp] theorem State.setFlags_exitCode (f : Flags) : (s.setFlags f).exitCode = s.exitCode := rfl
@[simp] theorem State.setFlags_debugEnabled (f : Flags) : (s.setFlags f).debugEnabled = s.debugEnabled := rfl
@[simp] theorem State.setFlags_traceEnabled (f : Flags) : (s.setFlags f).traceEnabled = s.traceEnabled := rfl
@[simp] theorem State.setFlags_breakpoints (f : Flags) : (s.setFlags f).breakpoints = s.breakpoints := rfl

/-! ### `State.setMem` -/

@[simp] theorem State.setMem_cfg (m : Memory) : (s.setMem m).cfg = s.cfg := rfl
@[simp] theorem State.setMem_pc (m : Memory) : (s.setMem m).pc = s.pc := rfl
@[simp] theorem State.setMem_sp (m : Memory) : (s.setMem m).sp = s.sp := rfl
@[simp] theorem State.setMem_a (m : Memory) : (s.setMem m).a = s.a := rfl
@[simp] theorem State.setMem_x (m : Memory) : (s.setMem m).x = s.x := rfl
@[simp] theorem State.setMem_ir (m : Memory) : (s.setMem m).ir = s.ir := rfl
@[simp] theorem State.setMem_flags (m : Memory) : (s.setMem m).flags = s.flags := rfl
@[simp] theorem State.setMem_mem (m : Memory) : (s.setMem m).mem = m := rfl
@[simp] theorem State.setMem_runState (m : Memory) : (s.setMem m).runState = s.runState := rfl
@[simp] theorem State.setMem_cycleCount (m : Memory) : (s.setMem m).cycleCount = s.cycleCount := rfl
@[simp] theorem State.setMem_lastError (m : Memory) : (s.setMem m).lastError = s.lastError := rfl
@[simp] theorem State.setMem_exitCode (m : Memory) : (s.setMem m).exitCode = s.exitCode := rfl
@[simp] theorem State.setMem_debugEnabled (m : Memory) : (s.setMem m).debugEnabled = s.debugEnabled := rfl
@[simp] theorem State.setMem_traceEnabled (m : Memory) : (s.setMem m).traceEnabled = s.traceEnabled := rfl
@[simp] theorem State.setMem_breakpoints (m : Memory) : (s.setMem m).breakpoints = s.breakpoints := rfl

/-! ### `State.setRunState` -/

@[simp] theorem State.setRunState_cfg (r : RunState) : (s.setRunState r).cfg = s.cfg := rfl
@[simp] theorem State.setRunState_pc (r : RunState) : (s.setRunState r).pc = s.pc := rfl
@[simp] theorem State.setRunState_sp (r : RunState) : (s.setRunState r).sp = s.sp := rfl
@[simp] theorem State.setRunState_a (r : RunState) : (s.setRunState r).a = s.a := rfl
@[simp] theorem State.setRunState_x (r : RunState) : (s.setRunState r).x = s.x := rfl
@[simp] theorem State.setRunState_ir (r : RunState) : (s.setRunState r).ir = s.ir := rfl
@[simp] theorem State.setRunState_flags (r : RunState) : (s.setRunState r).flags = s.flags := rfl
@[simp] theorem State.setRunState_mem (r : RunState) : (s.setRunState r).mem = s.mem := rfl
@[simp] theorem State.setRunState_runState (r : RunState) : (s.setRunState r).runState = r := rfl
@[simp] theorem State.setRunState_cycleCount (r : RunState) : (s.setRunState r).cycleCount = s.cycleCount := rfl
@[simp] theorem State.setRunState_lastError (r : RunState) : (s.setRunState r).lastError = s.lastError := rfl
@[simp] theorem State.setRunState_exitCode (r : RunState) : (s.setRunState r).exitCode = s.exitCode := rfl
@[simp] theorem State.setRunState_debugEnabled (r : RunState) : (s.setRunState r).debugEnabled = s.debugEnabled := rfl
@[simp] theorem State.setRunState_traceEnabled (r : RunState) : (s.setRunState r).traceEnabled = s.traceEnabled := rfl
@[simp] theorem State.setRunState_breakpoints (r : RunState) : (s.setRunState r).breakpoints = s.breakpoints := rfl

/-! ### `State.setBreakpoints` -/

@[simp] theorem State.setBreakpoints_cfg (bs : List Breakpoint) : (s.setBreakpoints bs).cfg = s.cfg := rfl
@[simp] theorem State.setBreakpoints_pc (bs : List Breakpoint) : (s.setBreakpoints bs).pc = s.pc := rfl
@[simp] theorem State.setBreakpoints_sp (bs : List Breakpoint) : (s.setBreakpoints bs).sp = s.sp := rfl
@[simp] theorem State.setBreakpoints_a (bs : List Breakpoint) : (s.setBreakpoints bs).a = s.a := rfl
@[simp] theorem State.setBreakpoints_x (bs : List Breakpoint) : (s.setBreakpoints bs).x = s.x := rfl
@[simp] theorem State.setBreakpoints_ir (bs : List Breakpoint) : (s.setBreakpoints bs).ir = s.ir := rfl
@[simp] theorem State.setBreakpoints_flags (bs : List Breakpoint) : (s.setBreakpoints bs).flags = s.flags := rfl
@[simp] theorem State.setBreakpoints_mem (bs : List Breakpoint) : (s.setBreakpoints bs).mem = s.mem := rfl
@[simp] theorem State.setBreakpoints_runState (bs : List Breakpoint) : (s.setBreakpoints bs).runState = s.runState := rfl
@[simp] theorem State.setBreakpoints_cycleCount (bs : List Breakpoint) : (s.setBreakpoints bs).cycleCount = s.cycleCount := rfl
@[simp] theorem State.setBreakpoints_lastError (bs : List Breakpoint) : (s.setBreakpoints bs).lastError = s.lastError := rfl
@[simp] theorem State.setBreakpoints_exitCode (bs : List Breakpoint) : (s.setBreakpoints bs).exitCode = s.exitCode := rfl
@[simp] theorem State.setBreakpoints_debugEnabled (bs : List Breakpoint) : (s.setBreakpoints bs).debugEnabled = s.debugEnabled := rfl
@[simp] theorem State.setBreakpoints_traceEnabled (bs : List Breakpoint) : (s.setBreakpoints bs).traceEnabled = s.traceEnabled := rfl
@[simp] theorem State.setBreakpoints_breakpoints (bs : List Breakpoint) : (s.setBreakpoints bs).breakpoints = bs := rfl

/-! ### `State.loadFetched` -/

@[simp] theorem State.loadFetched_cfg (w : Word) : (s.loadFetched w).cfg = s.cfg := rfl
@[simp] theorem State.loadFetched_pc (w : Word) : (s.loadFetched w).pc = s.pc + 1 := rfl
@[simp] theorem State.loadFetched_sp (w : Word) : (s.loadFetched w).sp = s.sp := rfl
@[simp] theorem State.loadFetched_a (w : Word) : (s.loadFetched w).a = s.a := rfl
@[simp] theorem State.loadFetched_x (w : Word) : (s.loadFetched w).x = s.x := rfl
@[simp] theorem State.loadFetched_ir (w : Word) : (s.loadFetched w).ir = w := rfl
@[simp] theorem State.loadFetched_flags (w : Word) : (s.loadFetched w).flags = s.flags := rfl
@[simp] theorem State.loadFetched_mem (w : Word) : (s.loadFetched w).mem = s.mem := rfl
@[simp] theorem State.loadFetched_runState (w : Word) : (s.loadFetched w).runState = s.runState := rfl
@[simp] theorem State.loadFetched_cycleCount (w : Word) : (s.loadFetched w).cycleCount = s.cycleCount + 1 := rfl
@[simp] theorem State.loadFetched_lastError (w : Word) : (s.loadFetched w).lastError = s.lastError := rfl
@[simp] theorem State.loadFetched_exitCode (w : Word) : (s.loadFetched w).exitCode = s.exitCode := rfl
@[simp] theorem State.loadFetched_debugEnabled (w : Word) : (s.loadFetched w).debugEnabled = s.debugEnabled := rfl
@[simp] theorem State.loadFetched_traceEnabled (w : Word) : (s.loadFetched w).traceEnabled = s.traceEnabled := rfl
@[simp] theorem State.loadFetched_breakpoints (w : Word) : (s.loadFetched w).breakpoints = s.breakpoints := rfl

/-! ### `State.halt` -/

@[simp] theorem State.halt_cfg (code : BitVec 10) : (s.halt code).cfg = s.cfg := rfl
@[simp] theorem State.halt_pc (code : BitVec 10) : (s.halt code).pc = s.pc := rfl
@[simp] theorem State.halt_sp (code : BitVec 10) : (s.halt code).sp = s.sp := rfl
@[simp] theorem State.halt_a (code : BitVec 10) : (s.halt code).a = s.a := rfl
@[simp] theorem State.halt_x (code : BitVec 10) : (s.halt code).x = s.x := rfl
@[simp] theorem State.halt_ir (code : BitVec 10) : (s.halt code).ir = s.ir := rfl
@[simp] theorem State.halt_flags (code : BitVec 10) : (s.halt code).flags = s.flags := rfl
@[simp] theorem State.halt_mem (code : BitVec 10) : (s.halt code).mem = s.mem := rfl
@[simp] theorem State.halt_runState (code : BitVec 10) : (s.halt code).runState = .halted := rfl
@[simp] theorem State.halt_cycleCount (code : BitVec 10) : (s.halt code).cycleCount = s.cycleCount := rfl
@[simp] theorem State.halt_lastError (code : BitVec 10) : (s.halt code).lastError = s.lastError := rfl
@[simp] theorem State.halt_exitCode (code : BitVec 10) : (s.halt code).exitCode = code := rfl
@[simp] theorem State.halt_debugEnabled (code : BitVec 10) : (s.halt code).debugEnabled = s.debugEnabled := rfl
@[simp] theorem State.halt_traceEnabled (code : BitVec 10) : (s.halt code).traceEnabled = s.traceEnabled := rfl
@[simp] theorem State.halt_breakpoints (code : BitVec 10) : (s.halt code).breakpoints = s.breakpoints := rfl

/-! ### `State.recordError` -/

@[simp] theorem State.recordError_cfg (e : ErrorCause) : (s.recordError e).cfg = s.cfg := rfl
@[simp] theorem State.recordError_pc (e : ErrorCause) : (s.recordError e).pc = s.pc := rfl
@[simp] theorem State.recordError_sp (e : ErrorCause) : (s.recordError e).sp = s.sp := rfl
@[simp] theorem State.recordError_a (e : ErrorCause) : (s.recordError e).a = s.a := rfl
@[simp] theorem State.recordError_x (e : ErrorCause) : (s.recordError e).x = s.x := rfl
@[simp] theorem State.recordError_ir (e : ErrorCause) : (s.recordError e).ir = s.ir := rfl
@[simp] theorem State.recordError_flags (e : ErrorCause) : (s.recordError e).flags = s.flags := rfl
@[simp] theorem State.recordError_mem (e : ErrorCause) : (s.recordError e).mem = s.mem := rfl
@[simp] theorem State.recordError_runState (e : ErrorCause) : (s.recordError e).runState = .error := rfl
@[simp] theorem State.recordError_cycleCount (e : ErrorCause) : (s.recordError e).cycleCount = s.cycleCount := rfl
@[simp] theorem State.recordError_lastError (e : ErrorCause) : (s.recordError e).lastError = some { cause := e, pc := s.pc } := rfl
@[simp] theorem State.recordError_exitCode (e : ErrorCause) : (s.recordError e).exitCode = s.exitCode := rfl
@[simp] theorem State.recordError_debugEnabled (e : ErrorCause) : (s.recordError e).debugEnabled = s.debugEnabled := rfl
@[simp] theorem State.recordError_traceEnabled (e : ErrorCause) : (s.recordError e).traceEnabled = s.traceEnabled := rfl
@[simp] theorem State.recordError_breakpoints (e : ErrorCause) : (s.recordError e).breakpoints = s.breakpoints := rfl

/-! ### `State.writeArith` -/

@[simp] theorem State.writeArith_cfg (i : Int) : (s.writeArith i).cfg = s.cfg := rfl
@[simp] theorem State.writeArith_pc (i : Int) : (s.writeArith i).pc = s.pc := rfl
@[simp] theorem State.writeArith_sp (i : Int) : (s.writeArith i).sp = s.sp := rfl
@[simp] theorem State.writeArith_a (i : Int) : (s.writeArith i).a = trunc16 i := rfl
@[simp] theorem State.writeArith_x (i : Int) : (s.writeArith i).x = s.x := rfl
@[simp] theorem State.writeArith_ir (i : Int) : (s.writeArith i).ir = s.ir := rfl
@[simp] theorem State.writeArith_flags (i : Int) : (s.writeArith i).flags = arithFlags i := rfl
@[simp] theorem State.writeArith_mem (i : Int) : (s.writeArith i).mem = s.mem := rfl
@[simp] theorem State.writeArith_runState (i : Int) : (s.writeArith i).runState = s.runState := rfl
@[simp] theorem State.writeArith_cycleCount (i : Int) : (s.writeArith i).cycleCount = s.cycleCount := rfl
@[simp] theorem State.writeArith_lastError (i : Int) : (s.writeArith i).lastError = s.lastError := rfl
@[simp] theorem State.writeArith_exitCode (i : Int) : (s.writeArith i).exitCode = s.exitCode := rfl
@[simp] theorem State.writeArith_debugEnabled (i : Int) : (s.writeArith i).debugEnabled = s.debugEnabled := rfl
@[simp] theorem State.writeArith_traceEnabled (i : Int) : (s.writeArith i).traceEnabled = s.traceEnabled := rfl
@[simp] theorem State.writeArith_breakpoints (i : Int) : (s.writeArith i).breakpoints = s.breakpoints := rfl

/-! ### `State.writeLogic` -/

@[simp] theorem State.writeLogic_cfg (r : Word) : (s.writeLogic r).cfg = s.cfg := rfl
@[simp] theorem State.writeLogic_pc (r : Word) : (s.writeLogic r).pc = s.pc := rfl
@[simp] theorem State.writeLogic_sp (r : Word) : (s.writeLogic r).sp = s.sp := rfl
@[simp] theorem State.writeLogic_a (r : Word) : (s.writeLogic r).a = r := rfl
@[simp] theorem State.writeLogic_x (r : Word) : (s.writeLogic r).x = s.x := rfl
@[simp] theorem State.writeLogic_ir (r : Word) : (s.writeLogic r).ir = s.ir := rfl
@[simp] theorem State.writeLogic_flags (r : Word) : (s.writeLogic r).flags = logicFlags r := rfl
@[simp] theorem State.writeLogic_mem (r : Word) : (s.writeLogic r).mem = s.mem := rfl
@[simp] theorem State.writeLogic_runState (r : Word) : (s.writeLogic r).runState = s.runState := rfl
@[simp] theorem State.writeLogic_cycleCount (r : Word) : (s.writeLogic r).cycleCount = s.cycleCount := rfl
@[simp] theorem State.writeLogic_lastError (r : Word) : (s.writeLogic r).lastError = s.lastError := rfl
@[simp] theorem State.writeLogic_exitCode (r : Word) : (s.writeLogic r).exitCode = s.exitCode := rfl
@[simp] theorem State.writeLogic_debugEnabled (r : Word) : (s.writeLogic r).debugEnabled = s.debugEnabled := rfl
@[simp] theorem State.writeLogic_traceEnabled (r : Word) : (s.writeLogic r).traceEnabled = s.traceEnabled := rfl
@[simp] theorem State.writeLogic_breakpoints (r : Word) : (s.writeLogic r).breakpoints = s.breakpoints := rfl

/-! ### `State.jumpTo` -/

@[simp] theorem State.jumpTo_cfg (t : BitVec 10) : (s.jumpTo t).cfg = s.cfg := rfl
@[simp] theorem State.jumpTo_pc (t : BitVec 10) : (s.jumpTo t).pc = zext10 t := rfl
@[simp] theorem State.jumpTo_sp (t : BitVec 10) : (s.jumpTo t).sp = s.sp := rfl
@[simp] theorem State.jumpTo_a (t : BitVec 10) : (s.jumpTo t).a = s.a := rfl
@[simp] theorem State.jumpTo_x (t : BitVec 10) : (s.jumpTo t).x = s.x := rfl
@[simp] theorem State.jumpTo_ir (t : BitVec 10) : (s.jumpTo t).ir = s.ir := rfl
@[simp] theorem State.jumpTo_flags (t : BitVec 10) : (s.jumpTo t).flags = s.flags := rfl
@[simp] theorem State.jumpTo_mem (t : BitVec 10) : (s.jumpTo t).mem = s.mem := rfl
@[simp] theorem State.jumpTo_runState (t : BitVec 10) : (s.jumpTo t).runState = s.runState := rfl
@[simp] theorem State.jumpTo_cycleCount (t : BitVec 10) : (s.jumpTo t).cycleCount = s.cycleCount := rfl
@[simp] theorem State.jumpTo_lastError (t : BitVec 10) : (s.jumpTo t).lastError = s.lastError := rfl
@[simp] theorem State.jumpTo_exitCode (t : BitVec 10) : (s.jumpTo t).exitCode = s.exitCode := rfl
@[simp] theorem State.jumpTo_debugEnabled (t : BitVec 10) : (s.jumpTo t).debugEnabled = s.debugEnabled := rfl
@[simp] theorem State.jumpTo_traceEnabled (t : BitVec 10) : (s.jumpTo t).traceEnabled = s.traceEnabled := rfl
@[simp] theorem State.jumpTo_breakpoints (t : BitVec 10) : (s.jumpTo t).breakpoints = s.breakpoints := rfl

end Sys2Proof.Machine
end

