-- ==== Sys2Proof/Laws/Ops.lean ====
section
/-! SUPPORT. One lemma for each shared operation, which says everything it can do. -/

namespace Sys2Proof.Machine

variable {s t : State}

/-- An instruction ends in its writes, or in the error path from the state it began in. -/
theorem complete_next {r : Except ErrorCause State} (h : complete s r = .next t) :
    r = .ok t ∨ ∃ e, r = .error e ∧ t = s.recordError e := by
  cases r with
  | ok u => left; injection h with h; rw [h]
  | error e => right; injection h with h; exact ⟨e, rfl, h.symm⟩

@[simp] theorem complete_ok : complete s (.ok t) = .next t := rfl

@[simp] theorem complete_error {e : ErrorCause} : complete s (.error e) = .next (s.recordError e) := rfl

/-- Whatever an instruction's writes come to, it ends in a next state. -/
theorem complete_total (r : Except ErrorCause State) : ∃ t, complete s r = .next t := by
  cases r <;> exact ⟨_, rfl⟩

/-- The bind of two fallible phases: an error of the first ends it. -/
@[simp] theorem bind_ok_iff {α β : Type} {r : Except ErrorCause α} {f : α → Except ErrorCause β} {b : β} :
    r.bind f = .ok b ↔ ∃ a, r = .ok a ∧ f a = .ok b := by
  cases r <;> simp [Except.bind]

@[simp] theorem bind_error_iff {α β : Type} {r : Except ErrorCause α} {f : α → Except ErrorCause β} {e : ErrorCause} :
    r.bind f = .error e ↔ r = .error e ∨ ∃ a, r = .ok a ∧ f a = .error e := by
  cases r <;> simp [Except.bind]

@[simp] theorem map_ok_iff {α β : Type} {r : Except ErrorCause α} {f : α → β} {b : β} :
    r.map f = .ok b ↔ ∃ a, r = .ok a ∧ f a = b := by
  cases r <;> simp [Except.map]

@[simp] theorem map_error_iff {α β : Type} {r : Except ErrorCause α} {f : α → β} {e : ErrorCause} :
    r.map f = .error e ↔ r = .error e := by
  cases r <;> simp [Except.map]

theorem checkAddress_ok_iff {a : Int} {k : Nat} : checkAddress a = .ok k ↔ 0 ≤ a ∧ a < 1024 ∧ k = a.toNat := by
  unfold checkAddress
  split <;> simp [memWords] at * <;> omega

theorem checkAddress_error_iff {a : Int} {e : ErrorCause} :
    checkAddress a = .error e ↔ (a < 0 ∨ 1024 ≤ a) ∧ e = .invalidAddress a := by
  unfold checkAddress
  split
  · rename_i h
    simp only [memWords, Nat.cast_ofNat] at h
    simp only [h, true_and, Except.error.injEq, eq_comm]
  · rename_i h
    simp only [memWords, Nat.cast_ofNat] at h
    simp [h]

theorem memRead_ok_iff {a : Int} {v : Word} :
    memRead a s = .ok v ↔ 0 ≤ a ∧ a < 1024 ∧ v = s.mem.read a.toNat := by
  simp only [memRead, map_ok_iff, checkAddress_ok_iff]
  constructor
  · rintro ⟨k, ⟨h0, h1, rfl⟩, rfl⟩; exact ⟨h0, h1, rfl⟩
  · rintro ⟨h0, h1, rfl⟩; exact ⟨_, ⟨h0, h1, rfl⟩, rfl⟩

theorem memRead_error_iff {a : Int} {e : ErrorCause} :
    memRead a s = .error e ↔ (a < 0 ∨ 1024 ≤ a) ∧ e = .invalidAddress a := by
  simp only [memRead, map_error_iff, checkAddress_error_iff]

theorem memWrite_ok_iff {a : Int} {v : Word} :
    memWrite a v s = .ok t ↔ 0 ≤ a ∧ a < 1024 ∧ t = s.setMem (s.mem.write a.toNat v) := by
  simp only [memWrite, map_ok_iff, checkAddress_ok_iff]
  constructor
  · rintro ⟨k, ⟨h0, h1, rfl⟩, rfl⟩; exact ⟨h0, h1, rfl⟩
  · rintro ⟨h0, h1, rfl⟩; exact ⟨_, ⟨h0, h1, rfl⟩, rfl⟩

theorem memWrite_error_iff {a : Int} {v : Word} {e : ErrorCause} :
    memWrite a v s = .error e ↔ (a < 0 ∨ 1024 ≤ a) ∧ e = .invalidAddress a := by
  simp only [memWrite, map_error_iff, checkAddress_error_iff]

/-- A push that succeeds stores at the old `SP` and decrements it. -/
theorem push_ok_iff {v : Word} :
    push v s = .ok t ↔ s.sp ≠ 0 ∧ s.sp.toNat < 1024 ∧
      t = (s.setMem (s.mem.write s.sp.toNat v)).setSp (s.sp - 1) := by
  unfold push
  split
  · simp [*]
  · simp only [map_ok_iff, memWrite_ok_iff]
    constructor
    · rintro ⟨u, ⟨h0, h1, rfl⟩, rfl⟩; exact ⟨‹_›, by omega, by simp⟩
    · rintro ⟨-, h1, rfl⟩; exact ⟨_, ⟨by omega, by omega, rfl⟩, by simp⟩

theorem push_error_iff {v : Word} {e : ErrorCause} :
    push v s = .error e ↔ (s.sp = 0 ∧ e = .stackOverflow) ∨
      (1024 ≤ s.sp.toNat ∧ e = .invalidAddress s.sp.toNat) := by
  unfold push
  split
  · simp only [Except.error.injEq]
    constructor
    · rintro rfl; exact Or.inl ⟨‹_›, rfl⟩
    · rintro (⟨-, rfl⟩ | ⟨h, -⟩)
      · rfl
      · simp_all
  · simp only [map_error_iff, memWrite_error_iff]
    constructor
    · rintro ⟨h, rfl⟩; exact Or.inr ⟨by omega, rfl⟩
    · rintro (⟨h, -⟩ | ⟨h, rfl⟩)
      · contradiction
      · exact ⟨by omega, rfl⟩

/-- A pop that succeeds increments `SP` and takes `PC` from the word there. -/
theorem popPc_ok_iff :
    popPc s = .ok t ↔ s.sp < s.cfg.stackTop ∧ (s.sp + 1).toNat < 1024 ∧
      t = (s.setSp (s.sp + 1)).setPc (s.mem.read (s.sp + 1).toNat) := by
  unfold popPc
  split
  · rename_i h
    simp only [reduceCtorEq, false_iff]
    rintro ⟨h1, -, -⟩
    exact absurd h1 (BitVec.not_lt.mpr h)
  · rename_i h
    simp only [map_ok_iff, memRead_ok_iff]
    constructor
    · rintro ⟨w, ⟨h0, h1, rfl⟩, rfl⟩; exact ⟨BitVec.not_le.mp h, by omega, by rw [Int.toNat_natCast]⟩
    · rintro ⟨-, h1, rfl⟩; exact ⟨_, ⟨by omega, by omega, rfl⟩, by rw [Int.toNat_natCast]⟩

theorem popPc_error_iff {e : ErrorCause} :
    popPc s = .error e ↔ (s.cfg.stackTop ≤ s.sp ∧ e = .stackUnderflow) ∨
      (s.sp < s.cfg.stackTop ∧ 1024 ≤ (s.sp + 1).toNat ∧ e = .invalidAddress (s.sp + 1).toNat) := by
  unfold popPc
  split
  · rename_i h
    simp only [Except.error.injEq]
    constructor
    · rintro rfl; exact Or.inl ⟨h, rfl⟩
    · rintro (⟨-, rfl⟩ | ⟨h1, -⟩)
      · rfl
      · exact absurd h1 (BitVec.not_lt.mpr h)
  · rename_i h
    simp only [map_error_iff, memRead_error_iff]
    constructor
    · rintro ⟨h1, rfl⟩; exact Or.inr ⟨BitVec.not_le.mp h, by omega, rfl⟩
    · rintro (⟨h1, -⟩ | ⟨-, h1, rfl⟩)
      · contradiction
      · exact ⟨by omega, rfl⟩

end Sys2Proof.Machine
end

