-- ==== Sys2Proof/Laws/PerInstr.lean ====
section
/-! SUPPORT. The family `Assembled`: an instruction is what the decoder makes of its own opcode and fields. -/

namespace Sys2Proof.Laws.Assembled

/-- Building an instruction from its own opcode and fields gives it back, when it is well formed as a term. -/
def Statement (i : Instr) : Prop := i.haltCodeNonzero = true → instrOf i.opcode i.modeField i.opdField = i

theorem nop : Statement .nop := fun _ => rfl
theorem lda (mode : BitVec 2) (opd : BitVec 10) : Statement (.lda mode opd) := fun _ => rfl
theorem sta (mode : BitVec 2) (opd : BitVec 10) : Statement (.sta mode opd) := fun _ => rfl
theorem add (mode : BitVec 2) (opd : BitVec 10) : Statement (.add mode opd) := fun _ => rfl
theorem sub (mode : BitVec 2) (opd : BitVec 10) : Statement (.sub mode opd) := fun _ => rfl
theorem mul (mode : BitVec 2) (opd : BitVec 10) : Statement (.mul mode opd) := fun _ => rfl
theorem div (mode : BitVec 2) (opd : BitVec 10) : Statement (.div mode opd) := fun _ => rfl
theorem and (mode : BitVec 2) (opd : BitVec 10) : Statement (.and mode opd) := fun _ => rfl
theorem or (mode : BitVec 2) (opd : BitVec 10) : Statement (.or mode opd) := fun _ => rfl
theorem xor (mode : BitVec 2) (opd : BitVec 10) : Statement (.xor mode opd) := fun _ => rfl
theorem cmp (mode : BitVec 2) (opd : BitVec 10) : Statement (.cmp mode opd) := fun _ => rfl
theorem jmp (target : BitVec 10) : Statement (.jmp target) := fun _ => rfl
theorem jz (target : BitVec 10) : Statement (.jz target) := fun _ => rfl
theorem jnz (target : BitVec 10) : Statement (.jnz target) := fun _ => rfl
theorem jsr (target : BitVec 10) : Statement (.jsr target) := fun _ => rfl
theorem rtsReturn : Statement .rtsReturn := fun _ => rfl
theorem rtsHalt (code : BitVec 10) : Statement (.rtsHalt code) := by
  intro h
  have hne : code ≠ 0 := by simpa [Instr.haltCodeNonzero] using h
  exact if_neg hne

end Sys2Proof.Laws.Assembled

namespace Sys2Proof

/-- In parameters that are maps, the code of an opcode is decoded to that opcode. -/
theorem Config.opcodeOf_codeOf {c : Config} (hc : c.wf) {op : Opcode} {code : BitVec 4}
    (h : c.codeOf op = some code) : c.opcodeOf code = some op := by
  obtain ⟨row, hrow, rfl⟩ := Option.map_eq_some_iff.mp h
  have hmem : row ∈ c.opcodeMap := List.mem_of_find?_eq_some hrow
  have hop : row.2 = op := by simpa using List.find?_some hrow
  have hnodup : (c.opcodeMap.map Prod.fst).Nodup := hc.2.2.1
  unfold Config.opcodeOf
  cases hf : c.opcodeMap.find? fun r => r.1 == row.1 with
  | none => exact absurd (List.find?_eq_none.mp hf row hmem) (by simp)
  | some r =>
    have hr : r.1 = row.1 := by simpa using List.find?_some hf
    have : r = row := List.inj_on_of_nodup_map hnodup (List.mem_of_find?_eq_some hf) hmem hr
    simp [this, hop]

end Sys2Proof
end

