-- ==== Sys2Proof/Laws/Step.lean ====
section
/-! SUPPORT. What the phases before the execute phase can do, said once. -/

namespace Sys2Proof.Machine

variable {s t : State}

/-- The breakpoint check misses exactly when no enabled slot stands at `pc`. -/
theorem hitTable_none_iff {pc : Word} {bs : List Breakpoint} :
    hitTable pc bs = none ↔ ∀ b ∈ bs, ¬(b.enabled = true ∧ b.address.val = pc.toNat) := by
  induction bs with
  | nil => simp [hitTable]
  | cons b rest ih =>
    by_cases hb : b.enabledAt pc.toNat = true
    · simp only [hitTable, hb, if_true, reduceCtorEq, false_iff]
      intro h
      exact h b (by simp) (by simpa [Breakpoint.enabledAt] using hb)
    · have hb' : ¬(b.enabled = true ∧ b.address.val = pc.toNat) := by
        simpa [Breakpoint.enabledAt] using hb
      rw [hitTable, if_neg hb, Option.map_eq_none_iff, ih, List.forall_mem_cons]
      exact (and_iff_right hb').symm

/-- The breakpoint check that hits increments one enabled slot at `pc` and changes no other slot. -/
theorem hitTable_some {pc : Word} {bs bs' : List Breakpoint} (h : hitTable pc bs = some bs') :
    ∃ l b r, bs = l ++ b :: r ∧ b.enabled = true ∧ b.address.val = pc.toNat ∧
      bs' = l ++ { b with hitCount := b.hitCount + 1 } :: r := by
  induction bs generalizing bs' with
  | nil => simp [hitTable] at h
  | cons b rest ih =>
    simp only [hitTable] at h
    split at h
    · rename_i hb
      have hb' : b.enabled = true ∧ b.address.val = pc.toNat := by simpa [Breakpoint.enabledAt] using hb
      injection h with h
      exact ⟨[], b, rest, rfl, hb'.1, hb'.2, h.symm⟩
    · obtain ⟨r', hr, rfl⟩ := Option.map_eq_some_iff.mp h
      obtain ⟨l, c, r, rfl, hc, ha, rfl⟩ := ih hr
      exact ⟨b :: l, c, r, rfl, hc, ha, rfl⟩

theorem beforeExecute_live (h : ¬ s.runState.Terminal) : beforeExecute s = checkBreakpoint s := by
  unfold beforeExecute
  cases hr : s.runState <;> simp_all

/-- Everything the phases before the execute phase can come to. -/
theorem beforeExecute_cases (s : State) :
    (s.runState = .halted ∧ beforeExecute s = .done (.halt s.exitCode) s) ∨
    (s.runState = .error ∧ beforeExecute s = .done (.error s.lastError) s) ∨
    (¬ s.runState.Terminal ∧ ∃ bs, hitTable s.pc s.breakpoints = some bs ∧
      beforeExecute s = .done .breakpoint ((s.setBreakpoints bs).setRunState .breakpoint)) ∨
    (¬ s.runState.Terminal ∧ hitTable s.pc s.breakpoints = none ∧ 1024 ≤ s.pc.toNat ∧
      beforeExecute s = Prepared.ofError (.pcOutOfBounds s.pc) s) ∨
    (¬ s.runState.Terminal ∧ hitTable s.pc s.breakpoints = none ∧ s.pc.toNat < 1024 ∧
      ∃ opc, decode s.cfg (s.mem.read s.pc.toNat) = .error (.invalidOpcode opc) ∧
        beforeExecute s = Prepared.ofError (.invalidOpcode opc) (s.loadFetched (s.mem.read s.pc.toNat))) ∨
    (¬ s.runState.Terminal ∧ hitTable s.pc s.breakpoints = none ∧ s.pc.toNat < 1024 ∧
      ∃ i, decode s.cfg (s.mem.read s.pc.toNat) = .ok i ∧
        beforeExecute s = .run i (s.loadFetched (s.mem.read s.pc.toNat))) := by
  by_cases hT : s.runState.Terminal
  · rcases hT with h | h
    · exact Or.inl ⟨h, by simp [beforeExecute, h]⟩
    · exact Or.inr (Or.inl ⟨h, by simp [beforeExecute, h]⟩)
  · rw [beforeExecute_live hT]
    unfold checkBreakpoint
    cases hh : hitTable s.pc s.breakpoints with
    | some bs => exact .inr (.inr (.inl ⟨hT, bs, rfl, rfl⟩))
    | none =>
      refine .inr (.inr (.inr ?_))
      by_cases hpc : 1024 ≤ s.pc.toNat
      · exact .inl ⟨hT, rfl, hpc, by simp [fetchDecode, memWords, hpc]⟩
      · have hlt : s.pc.toNat < 1024 := by omega
        cases hd : decode s.cfg (s.mem.read s.pc.toNat) with
        | error e => exact .inr (.inl ⟨hT, rfl, hlt, e.1, rfl, by simp [fetchDecode, memWords, hpc, hd]⟩)
        | ok i => exact .inr (.inr ⟨hT, rfl, hlt, i, rfl, by simp [fetchDecode, memWords, hpc, hd]⟩)

end Sys2Proof.Machine
end

