-- ==== Sys2Proof/Tests/Slice0.lean ====
section
/-! SUPPORT. Tests of the model: words written out from the spec's encoding, one step each on a small state, and for
every statement with hypotheses a witness that meets them. Expected values are those of spec/95_test_vectors.md or of the
rule named. -/

namespace Sys2Proof.Tests

open Sys2Proof.Machine

/-! ### WellFormed: each check refuses an ill-formed term -/

/-- Parameters with no entry in either map. -/
def noMaps : Config := { stackTop := 1, opcodeMap := [], modeMap := [] }

theorem test_wf_refuses_halt_code_zero : (Instr.rtsHalt 0).wf defaultConfig = false := by decide

theorem test_wf_refuses_opcode_without_code : Instr.nop.wf noMaps = false := by decide

theorem test_wf_accepts : (Instr.rtsHalt 1).wf defaultConfig = true ∧ defaultConfig.wf ∧ noMaps.wf := by decide

/-! ### Decoding: opcode bits 15..12, mode bits 11..10, operand bits 9..0 (30_encoding.md R81, R84; tables of
95_test_vectors.md 2.1 and 30_encoding.md R97) -/

theorem test_decode_nop : decode defaultConfig 0b0000_11_1111111111 = .ok .nop := by decide
theorem test_decode_lda : decode defaultConfig 0b0001_00_0000001010 = .ok (.lda 0 10) := by decide
theorem test_decode_sta : decode defaultConfig 0b0010_01_0001100100 = .ok (.sta 1 100) := by decide
theorem test_decode_add : decode defaultConfig 0b0011_00_0000000101 = .ok (.add 0 5) := by decide
theorem test_decode_sub : decode defaultConfig 0b0100_10_1000000000 = .ok (.sub 2 512) := by decide
theorem test_decode_mul : decode defaultConfig 0b0101_00_0000000010 = .ok (.mul 0 2) := by decide
theorem test_decode_div : decode defaultConfig 0b0110_11_0000010000 = .ok (.div 3 16) := by decide
theorem test_decode_and : decode defaultConfig 0b0111_00_0011111111 = .ok (.and 0 255) := by decide
theorem test_decode_or : decode defaultConfig 0b1000_10_1000000000 = .ok (.or 2 512) := by decide
theorem test_decode_xor : decode defaultConfig 0b1001_00_0011110000 = .ok (.xor 0 240) := by decide
theorem test_decode_cmp : decode defaultConfig 0b1010_00_0000000101 = .ok (.cmp 0 5) := by decide
theorem test_decode_jmp : decode defaultConfig 0b1011_11_0000000101 = .ok (.jmp 5) := by decide
theorem test_decode_jz : decode defaultConfig 0b1100_00_0000010100 = .ok (.jz 20) := by decide
theorem test_decode_jnz : decode defaultConfig 0b1101_00_0000000010 = .ok (.jnz 2) := by decide
theorem test_decode_jsr : decode defaultConfig 0b1110_00_0001100100 = .ok (.jsr 100) := by decide
theorem test_decode_rts_return : decode defaultConfig 0b1111_11_0000000000 = .ok .rtsReturn := by decide
theorem test_decode_rts_halt : decode defaultConfig 0b1111_00_0000000001 = .ok (.rtsHalt 1) := by decide
theorem test_decode_rejects_by_name : decode noMaps 0x7ABC = .error (.invalidOpcode 7) := by decide

/-- 30_encoding.md R97. -/
theorem test_encode_worked : [Instr.lda 0 10, .add 0 5, .mul 0 2, .rtsHalt 1, .lda 0 0x3FF, .lda 1 5, .lda 2 5, .lda 3 3,
    .sta 1 100, .jmp 0, .rtsReturn, .nop].map (encode defaultConfig) =
    [0x100A, 0x3005, 0x5002, 0xF001, 0x13FF, 0x1405, 0x1805, 0x1C03, 0x2464, 0xB000, 0xF000, 0x0000].map some := by
  decide

/-- 95_test_vectors.md 2.1, encoder truncation. -/
theorem test_encoder_truncates : encodeFields 0x13 5 0x7FF = 0x37FF ∧ encodeFields 1 0 (-1) = 0x13FF ∧
    encodeFields 0xE 0 1024 = 0xE000 := by decide

theorem test_table_word : decodeTableWord 16 0xF000 = some .rtsReturn ∧ decodeTableWord 16 0x1000 = some (.lda 0 0) := by
  decide

/-- 30_encoding.md R95, R97. -/
theorem test_assembly : (Instr.lda 0 0x3FF).assembly defaultConfig = some "LDA #-1" ∧
    (Instr.lda 2 5).assembly defaultConfig = some "LDA [5]" ∧ (Instr.div 3 16).assembly defaultConfig = some "DIV 16,X" ∧
    (Instr.rtsHalt 1).assembly defaultConfig = some "RTS 1" ∧ wordAssembly defaultConfig 0x1C03 = some "LDA 3,X" := by decide

/-! ### One step -/

/-- The reset state with `w` at `pc`, fetched next, and a few more words. -/
def prog (pc : Word) (w : Word) (more : Memory := []) : State :=
  { State.reset with pc := pc, mem := more.foldl (fun m e => m.write e.1 e.2) (Memory.write [] pc.toNat w) }

/-- `prog` with `A` set. -/
def progA (a : Word) (w : Word) (more : Memory := []) : State := { prog 0 w more with a := a }

/-- The state after one step. -/
def after (s : State) : State :=
  match step s with
  | .next t => t
  | .fault _ => s
  | .refused _ => s

/-- Flags written `ZNCV` as in 95_test_vectors.md. -/
def znvc (z n c v : Bool) : Flags := { z := z, n := n, c := c, v := v }

/-- The error a step from address 0 records in its execute phase. -/
def raised (e : ErrorCause) : Option ErrorRecord := some { cause := e, pc := 1 }

/-- 95_test_vectors.md 2.5: the state differs in `PC`, `IR` and `cycle_count` only. -/
theorem test_nop : after (prog 7 0x0FFF) = { prog 7 0x0FFF with pc := 8, ir := 0x0FFF, cycleCount := 1 } := by decide

theorem test_lda_negative_direct : (after (prog 0 0x17FF [(1023, 0x8000)])).a = 0x8000 ∧
    (after (prog 0 0x17FF [(1023, 0x8000)])).flags = znvc false true false false := by decide

theorem test_lda_negative_pointer : (after (progA 7 0x1805 [(5, 0xFFFF)])).lastError = raised (.invalidAddress (-1)) ∧
    (after (progA 7 0x1805 [(5, 0xFFFF)])).a = 7 := by decide

theorem test_sta_indirect : (after (progA 7 0x2805 [(5, 300)])).mem = [(0, 0x2805), (5, 300), (300, 7)] := by decide

theorem test_sta_immediate : (after (progA 7 0x2064)).lastError = raised .cannotStoreToImmediate ∧
    (after (progA 7 0x2064)).mem = [(0, 0x2064)] := by decide

theorem test_add_wraps : (after (progA 32767 0x3001)).a = 0x8000 ∧
    (after (progA 32767 0x3001)).flags = znvc false false true true := by decide

theorem test_add_to_zero_with_overflow : (after (progA 0x8000 0x3405 [(5, 0x8000)])).a = 0 ∧
    (after (progA 0x8000 0x3405 [(5, 0x8000)])).flags = znvc false true true true := by decide

theorem test_sub_wraps : (after (progA 0x8000 0x4001)).a = 0x7FFF ∧
    (after (progA 0x8000 0x4001)).flags = znvc false true true true := by decide

theorem test_sub_operand_order : (after (progA 3 0x4005)).a = 0xFFFE := by decide

theorem test_mul_wraps : (after (progA 200 0x50C8)).a = 0x9C40 ∧
    (after (progA 200 0x50C8)).flags = znvc false false true true := by decide

theorem test_mul_negative : (after (progA 0xFFFD 0x5004)).a = 0xFFF4 ∧
    (after (progA 0xFFFD 0x5004)).flags = znvc false true false false := by decide

theorem test_div_toward_zero : (after (progA 0xFFF9 0x6002)).a = 0xFFFD := by decide

theorem test_div_overflow : (after (progA 0x8000 0x63FF)).a = 0x8000 ∧
    (after (progA 0x8000 0x63FF)).flags = znvc false false true true := by decide

theorem test_and : (after (progA 0x8000 0x73FF)).a = 0x8000 ∧
    (after (progA 0x8000 0x73FF)).flags = znvc false true false false := by decide

theorem test_or : (after (progA 0 0x8200)).a = 0xFE00 := by decide

theorem test_xor : (after (progA 0x5555 0x9405 [(5, 0x5555)])).flags = znvc true false false false := by decide

theorem test_cmp : (after (progA 0x8000 0xA001)).a = 0x8000 ∧
    (after (progA 0x8000 0xA001)).flags = znvc false true true true := by decide

theorem test_jmp_ignores_mode : (after (prog 10 0xBC05)).pc = 5 := by decide

theorem test_jz_not_taken : (after (prog 3 0xC014)).pc = 4 := by decide

theorem test_jz_taken : (after { prog 3 0xC014 with flags := znvc true false false false }).pc = 20 := by decide

theorem test_jnz_taken : (after (prog 9 0xD002)).pc = 2 := by decide

theorem test_jsr : (after (prog 1023 0xE000)).mem = [(1023, 1024)] ∧ (after (prog 1023 0xE000)).sp = 1022 ∧
    (after (prog 1023 0xE000)).pc = 0 := by decide

theorem test_jsr_no_room : (after { prog 0 0xE064 with sp := 0 }).lastError = raised .stackOverflow := by decide

theorem test_rts_return_unchecked : (after { prog 100 0xF000 [(1023, 0xFFFF)] with sp := 1022 }).pc = 0xFFFF ∧
    (after { prog 100 0xF000 [(1023, 0xFFFF)] with sp := 1022 }).sp = 1023 := by decide

theorem test_rts_return_underflow : (after (prog 0 0xF000)).lastError = raised .stackUnderflow := by decide

/-- The codes of 60_exceptions.md R220. -/
theorem test_error_codes : State.reset.errorCode = 0 ∧ (after (prog 0 0x6000)).errorCode = 4 ∧
    (after { State.reset with pc := 1024 }).errorCode = 8 := by decide

theorem test_rts_halt : stepReport (prog 8 0xFFFF) = .halt 1023 ∧ (after (prog 8 0xFFFF)).runState = .halted ∧
    (after (prog 8 0xFFFF)).pc = 9 := by decide

/-! ### The sequencer and the host's actions (95_test_vectors.md 2.6 to 2.8) -/

/-- A breakpoint that stands enabled at `a`. -/
def bpAt (a : Fin 1024) : Breakpoint := { address := a, enabled := true, hitCount := 0, condition := "" }

/-- S8: the breakpoint comes before the error. -/
theorem test_priority : stepReport { prog 0 0x2000 with breakpoints := [bpAt 0] } = .breakpoint := by decide

/-- S6. -/
theorem test_run_zero : run 0 State.reset = (.exhausted, State.reset) := by decide

/-- B4 on a small table: the lowest disabled slot is reused. -/
theorem test_add_reuses_lowest :
    (({ State.reset with breakpoints := [bpAt 0, { bpAt 1 with enabled := false }, { bpAt 2 with enabled := false }] } :
      State).addBreakpoint 40).2.breakpoints.map (fun b => (b.address, b.enabled)) =
    [(0, true), (40, true), (2, false)] := by decide

/-- 70_reset_and_hazards.md R275. -/
theorem test_load : (State.reset.loadProgram [0x100A, 0, 0xF001]).map State.mem = some [(0, 0x100A), (2, 0xF001)] := by
  decide

theorem test_with_fetch_word : (after (State.reset.withFetchWord 16 0x100A)).a = 10 ∧
    (after ({ State.reset with pc := 2000, runState := .error, breakpoints := [bpAt 0] }.withFetchWord 16 0x100A)).a = 10 := by
  decide

/-! ### Witnesses: for each statement with hypotheses, a state and operands that meet them all -/

theorem witness_DecodeOfEncodeIsTheInstruction :
    defaultConfig.wf ∧ (Instr.rtsHalt 1023).wf defaultConfig = true ∧ (Instr.lda 3 1023).wf defaultConfig = true := by
  decide

theorem witness_RtsSplitsOnItsOperand :
    defaultConfig.opcodeOf (Fields.ofWord 0xFC00).opc = some .rts ∧ (Fields.ofWord 0xFC00).opd = 0 ∧
    defaultConfig.opcodeOf (Fields.ofWord 0xF001).opc = some .rts ∧ (Fields.ofWord 0xF001).opd ≠ 0 ∧
    (Fields.ofWord 0xFFFF).opd.toNat = 1023 := by decide

theorem witness_UnreadFieldsDoNotMatter :
    (Fields.ofWord 0x0000).opc = (Fields.ofWord 0x0FFF).opc ∧
    defaultConfig.opcodeOf (Fields.ofWord 0x0000).opc = some .nop ∧
    (Fields.ofWord 0xB005).opc = (Fields.ofWord 0xBC05).opc ∧ (Fields.ofWord 0xB005).opd = (Fields.ofWord 0xBC05).opd ∧
    defaultConfig.opcodeOf (Fields.ofWord 0xB005).opc = some .jmp := by decide

theorem witness_DecoderAnswersWellFormedInstructions :
    decode defaultConfig 0x100A = .ok (.lda 0 10) ∧ decode noMaps 0x100A = .error (.invalidOpcode 1) := by decide

theorem witness_StepRunsTheDecodedInstruction :
    Fetches (prog 1023 0x100A) ∧
    decode (prog 1023 0x100A).cfg ((prog 1023 0x100A).mem.read (prog 1023 0x100A).pc.toNat) = .ok (.lda 0 10) := by
  decide

theorem witness_TerminalStatesDoNothing :
    ({ State.reset with runState := .halted } : State).runState = .halted ∧
    ({ State.reset with runState := .error } : State).runState = .error := by decide

/-- Also the witness of EnabledBreakpointAlwaysRetriggers, whose hypotheses are the same. -/
theorem witness_BreakpointStopsBeforeTheFetch :
    ¬ (prog 1023 0x100A).runState.Terminal ∧ TableWf [bpAt 0, bpAt 1023] ∧ [bpAt 0, bpAt 1023][1]? = some (bpAt 1023) ∧
    (bpAt 1023).enabled = true ∧ (bpAt 1023).address.val = (prog 1023 0x100A).pc.toNat := by decide

theorem witness_FetchBeyondMemoryIsPcOutOfBounds :
    ¬ State.reset.runState.Terminal ∧ 1024 ≤ ({ State.reset with pc := 1024 } : State).pc.toNat ∧
    1024 ≤ ({ State.reset with pc := 65535 } : State).pc.toNat := by decide

theorem witness_UnassignedOpcodeIsInvalidOpcode :
    Fetches { prog 0 0x7ABC with cfg := noMaps } ∧
    (Fields.ofWord ((prog 0 0x7ABC).mem.read 0)).opc = 7 ∧ noMaps.opcodeOf 7 = none := by decide

theorem witness_ReportMatchesTheNextState :
    stepReport (prog 0 0x100A) = .ok ∧ stepReport (prog 0 0xF001) = .halt 1 ∧
    stepReport (prog 0 0x6000) = .error (raised .divisionByZero) ∧
    stepReport { prog 0 0x100A with breakpoints := [bpAt 0] } = .breakpoint := by decide

theorem witness_ErrorsArePrecise :
    ¬ (prog 0 0x6000).runState.Terminal ∧ (after (prog 0 0x6000)).runState = .error ∧
    (after { State.reset with pc := 1024 }).runState = .error := by decide

theorem witness_NoReturnFromAnError :
    (after (prog 0 0x6000)).runState = .error ∧ (after (prog 0 0xF001)).runState = .halted := by decide

theorem witness_OnlyRtsHaltHalts :
    exec (.rtsHalt 1) State.reset = .next (State.reset.halt 1) ∧ exec .nop State.reset = .next State.reset ∧
    exec .rtsReturn State.reset = .next (Failed State.reset .stackUnderflow) := ⟨rfl, rfl, rfl⟩

theorem witness_CycleCountCountsFetches :
    step (prog 0 0) = .next (Fetched (prog 0 0)) ∧ Fetches (prog 0 0) ∧
    step { State.reset with pc := 1024 } = .next (Failed { State.reset with pc := 1024 } (.pcOutOfBounds 1024)) ∧
    ¬ Fetches { State.reset with pc := 1024 } := ⟨rfl, by decide, rfl, by decide⟩

/-- The four modes at the ends of their ranges, for every statement whose hypothesis is `ReadsOperand`. -/
theorem witness_ReadsOperand :
    ReadsOperand State.reset 0 0x200 0xFE00 ∧ ReadsOperand (prog 0 0 [(1023, 9)]) 1 1023 9 ∧
    ReadsOperand (prog 0 0 [(5, 1023), (1023, 9)]) 2 5 9 := by decide

/-- An indirect pointer to address 0, and the indexed mode at its upper end and with index 0. -/
theorem witness_ReadsOperand_ends :
    ReadsOperand (prog 0 0 [(5, 0)]) 2 5 0 ∧
    ReadsOperand { prog 0 0 [(1023, 9)] with x := 1020 } 3 3 9 ∧ ReadsOperand (prog 0 0 [(1023, 9)]) 3 1023 9 := by decide

/-- The clauses of `ReadFails` at the ends of their ranges, for OperandErrorsTakeTheErrorPath and DivByZeroIsAnError. -/
theorem witness_ReadFails :
    ReadFails { State.reset with cfg := noMaps } 1 5 (.invalidAddressingMode 1) ∧
    ReadFails (prog 0 0 [(5, 0xFFFF)]) 2 5 (.invalidAddress (-1)) ∧
    ReadFails (prog 0 0 [(5, 1024)]) 2 5 (.invalidAddress 1024) ∧
    ReadFails { State.reset with x := 1021 } 3 3 (.invalidAddress 1024) ∧
    ReadFails { State.reset with x := 65535 } 3 1023 (.invalidAddress 66558) := by decide

theorem witness_OperandErrorsTakeTheErrorPath_store :
    StoreFails State.reset 0 100 .cannotStoreToImmediate ∧
    StoreFails (prog 0 0 [(5, 0x8000)]) 2 5 (.invalidAddress (-32768)) := by decide

theorem witness_ResolverFollowsTheModes :
    resolveValue 0 0x3FF State.reset = .ok 0xFFFF ∧ resolveAddr 1 1023 State.reset = .ok 1023 ∧
    resolveAddr 0 1 State.reset = .error .cannotStoreToImmediate ∧
    resolveValue 3 3 { State.reset with x := 1021 } = .error (.invalidAddress 1024) := by decide

theorem witness_UnassignedModeIsInvalidAddressingMode : ({ State.reset with cfg := noMaps } : State).cfg.modeOf 3 = none :=
  by decide

theorem witness_StoreThroughImmediateIsAnError : State.reset.cfg.modeOf 0 = some .immediate := by decide

/-- The three modes at the ends of their ranges, with canonical memory. -/
theorem witness_StaStoresTheAccumulator :
    (prog 0 0 [(5, 1023)]).mem.wf = true ∧ StoresTo (prog 0 0 [(5, 1023)]) 2 5 1023 ∧ StoresTo State.reset 1 0 0 ∧
    StoresTo State.reset 3 1023 1023 ∧ State.reset.mem.wf = true := by decide

theorem witness_DivRoundsTowardZero :
    ReadsOperand State.reset 0 0x3FF 0xFFFF ∧ (0xFFFF : Word).toInt ≠ 0 := by decide

theorem witness_DivByZeroIsAnError : ReadsOperand State.reset 0 0 0 ∧ ReadsOperand State.reset 1 1023 0 := by decide

theorem witness_NopDoesNothingBeyondTheFetch :
    Fetches (prog 1023 0x0FFF) ∧
    (prog 1023 0x0FFF).cfg.opcodeOf (Fields.ofWord ((prog 1023 0x0FFF).mem.read 1023)).opc = some .nop := by decide

theorem witness_JsrPushesTheReturnAddress :
    State.reset.mem.wf = true ∧ State.reset.sp ≠ 0 ∧ State.reset.sp.toNat ≤ 1023 ∧
    ({ State.reset with sp := 1 } : State).sp ≠ 0 := by decide

theorem witness_JsrWithoutRoomIsStackOverflow : ({ State.reset with sp := 0 } : State).sp = 0 := by decide

theorem witness_RtsReturnPopsThePc :
    State.reset.cfg.wf ∧ ({ State.reset with sp := 1022 } : State).sp.toNat < State.reset.cfg.stackTop.toNat ∧
    ({ State.reset with sp := 0 } : State).sp.toNat < State.reset.cfg.stackTop.toNat := by decide

theorem witness_RtsWithoutCallIsStackUnderflow :
    State.reset.cfg.stackTop.toNat ≤ State.reset.sp.toNat ∧
    State.reset.cfg.stackTop.toNat ≤ ({ State.reset with sp := 65535 } : State).sp.toNat := by decide

theorem witness_RtsHaltHaltsWithItsCode :
    (1 : BitVec 10) ≠ 0 ∧ Fetches (prog 0 0xF3FF) ∧
    decode (prog 0 0xF3FF).cfg ((prog 0 0xF3FF).mem.read 0) = .ok (.rtsHalt 1023) := by decide

theorem witness_ReturnComesBackToTheCall :
    State.reset.cfg.wf ∧ State.reset.mem.wf = true ∧ State.reset.sp ≠ 0 ∧
    State.reset.sp.toNat ≤ State.reset.cfg.stackTop.toNat ∧ State.reset.sp = State.reset.cfg.stackTop := by decide

/-- `STACK_TOP` at both ends of its range, with as many calls as fit: one, and 1023. -/
theorem witness_ExactlyStackTopCallsFit :
    (noMaps.wf ∧ (State.init noMaps).sp = noMaps.stackTop ∧ [(5 : BitVec 10)].length = noMaps.stackTop.toNat) ∧
    defaultConfig.wf ∧ State.reset.sp = State.reset.cfg.stackTop ∧
    (List.replicate 1023 (5 : BitVec 10)).length = State.reset.cfg.stackTop.toNat := by
  refine ⟨by decide, by decide, by decide, ?_⟩
  rw [List.length_replicate]
  decide

theorem witness_ValueInstructionsFrame :
    exec (.add 0 5) State.reset = .next (State.reset.writeArith 5) ∧
    exec (.div 0 0) State.reset = .next (Failed State.reset .divisionByZero) ∧
    exec (.cmp 0 0) State.reset = .next (State.reset.setFlags (znvc true false false false)) := ⟨rfl, rfl, rfl⟩

theorem witness_StaFrame :
    exec (.sta 1 1023) { State.reset with a := 7 } = .next { State.reset with a := 7, mem := [(1023, 7)] } ∧
    resolveAddr 1 1023 { State.reset with a := 7 } = .ok 1023 ∧
    exec (.sta 0 0) State.reset = .next (Failed State.reset .cannotStoreToImmediate) ∧
    resolveAddr 0 0 State.reset = .error .cannotStoreToImmediate := ⟨rfl, by decide, rfl, by decide⟩

theorem witness_ControlFrame :
    exec (.jsr 5) { State.reset with pc := 1 } = .next { State.reset with pc := 5, sp := 1022, mem := [(1023, 1)] } ∧
    exec .rtsReturn State.reset = .next (Failed State.reset .stackUnderflow) ∧
    exec (.jmp 3) State.reset = .next { State.reset with pc := 3 } := ⟨rfl, rfl, rfl⟩

theorem witness_StepsNeverWriteHostState :
    step { prog 0 0 with breakpoints := [bpAt 0] } =
      .next { prog 0 0 with breakpoints := [{ bpAt 0 with hitCount := 1 }], runState := .breakpoint } := rfl

theorem witness_FlagReadersAreJzAndJnz :
    (znvc false true true false).z = State.reset.flags.z ∧ znvc false true true false ≠ State.reset.flags := by decide

theorem witness_IrIsLatchedAndNotRead : Fetches (prog 0 0) ∧ step (prog 0 0) = .next (Fetched (prog 0 0)) :=
  ⟨by decide, rfl⟩

/-- One witness for each of the five causes. -/
theorem witness_ErrorsHaveTheListedCauses :
    State.reset.Inv ∧ State.reset.runState ≠ .error ∧
    (State.Inv { State.reset with x := 1024 } ∧
      exec (.lda 3 0) { State.reset with x := 1024 } = .next (Failed { State.reset with x := 1024 } (.invalidAddress 1024))) ∧
    exec (.sta 0 0) State.reset = .next (Failed State.reset .cannotStoreToImmediate) ∧
    exec (.div 0 0) State.reset = .next (Failed State.reset .divisionByZero) ∧
    (State.Inv { State.reset with sp := 0 } ∧
      exec (.jsr 0) { State.reset with sp := 0 } = .next (Failed { State.reset with sp := 0 } .stackOverflow)) ∧
    exec .rtsReturn State.reset = .next (Failed State.reset .stackUnderflow) :=
  ⟨by decide, by decide, ⟨by decide, rfl⟩, rfl, rfl, ⟨by decide, rfl⟩, rfl⟩

theorem witness_StepKeepsTheInvariant : State.reset.Inv ∧ step State.reset = .next (Fetched State.reset) :=
  ⟨by decide, rfl⟩

theorem witness_HostActionsKeepTheInvariant :
    State.Inv { State.reset with breakpoints := [bpAt 0, { bpAt 0 with enabled := false }] } ∧
    State.reset.loadProgram [7] = some { State.reset with mem := [(0, 7)] } := ⟨by decide, rfl⟩

/-- The clauses of `add`: an address at each end, a duplicate, a disabled slot, a table with none and room. -/
theorem witness_AddTakesTheFirstFreeSlot :
    ((-1 : Int) < 0 ∧ (1024 : Int) ≤ 1024) ∧
    (∃ b ∈ [bpAt 5], b.enabled = true ∧ b.address = 5) ∧
    ((∀ b ∈ [bpAt 0, { bpAt 5 with enabled := false }], ¬(b.enabled = true ∧ b.address = 5)) ∧
      [bpAt 0, { bpAt 5 with enabled := false }][1]? = some { bpAt 5 with enabled := false } ∧
      [bpAt 0, { bpAt 5 with enabled := false }][0]? = some (bpAt 0)) ∧
    (∀ b ∈ [bpAt 0], b.enabled = true) ∧ [bpAt 0].length < 32 := by decide

/-- The last clause of `add`: a full table, every slot enabled, none at the address. -/
theorem witness_AddTakesTheFirstFreeSlot_full :
    (∀ b ∈ List.replicate 32 (bpAt 0), b.enabled = true) ∧
    (∀ b ∈ List.replicate 32 (bpAt 0), ¬(b.enabled = true ∧ b.address = 5)) ∧
    32 ≤ (List.replicate 32 (bpAt 0)).length := by decide

theorem witness_RemoveDisablesTheSlot :
    TableWf [bpAt 1023] ∧ [bpAt 1023][0]? = some (bpAt 1023) ∧ (bpAt 1023).enabled = true ∧
    ((bpAt 1023).address.val : Int) = 1023 ∧
    ∀ b ∈ [{ bpAt 99 with enabled := false }], ¬(b.enabled = true ∧ (b.address.val : Int) = 99) := by decide

theorem witness_LoaderPlacesTheProgram :
    State.reset.mem.wf = true ∧ (List.replicate 1024 (7 : Word)).length ≤ 1024 ∧
    1024 < (List.replicate 1025 (7 : Word)).length := by
  refine ⟨by decide, ?_, ?_⟩
  · rw [List.length_replicate]
  · rw [List.length_replicate]; omega

/-- The loop law's step: one that is Ok, and one that halts. -/
theorem witness_RunEndsAsItReports :
    ¬ State.reset.runState.Terminal ∧ ¬ (prog 0 0xF001).runState.Terminal ∧
    (stepReport { State.reset with runState := .running } = .ok ∧
      step { State.reset with runState := .running } = .next (Fetched { State.reset with runState := .running })) ∧
    stepReport { prog 0 0xF001 with runState := .running } ≠ .ok ∧
    step { prog 0 0xF001 with runState := .running } =
      .next { Fetched (prog 0 0xF001) with exitCode := 1, runState := .halted } :=
  ⟨by decide, by decide, ⟨by decide, rfl⟩, by decide, rfl⟩

theorem witness_SafeRunsStayOutOfError : State.reset.runState ≠ .error ∧ SafeRun 1 State.reset := by
  have hreport : stepReport State.reset = .ok := by decide
  exact ⟨by decide, by intro r; rw [hreport]; exact nofun, fun _ _ => trivial⟩

/-- An opcode that shows its operand and one that does not, each with tracing on and off. -/
theorem witness_TraceLineHoldsTheListedFields :
    (Fetches (prog 0 0x2BFF) ∧ decode (prog 0 0x2BFF).cfg ((prog 0 0x2BFF).mem.read 0) = .ok (.sta 2 1023) ∧
      (Instr.sta 2 1023).opcode ≠ .nop ∧ (Instr.sta 2 1023).opcode ≠ .rts) ∧
    (Fetches (prog 0 0xF001) ∧ decode (prog 0 0xF001).cfg ((prog 0 0xF001).mem.read 0) = .ok (.rtsHalt 1) ∧
      (Instr.rtsHalt 1).opcode = .rts) ∧
    (prog 0 0x2BFF).traceEnabled = false ∧ ({ prog 0 0x2BFF with traceEnabled := true } : State).traceEnabled = true := by
  decide

/-- Steps that do not reach the execute phase: terminal, breakpoint, `PC` out of bounds, an unassigned opcode. -/
theorem witness_TraceLineHoldsTheListedFields_none :
    ¬ Fetches { State.reset with runState := .halted } ∧ ¬ Fetches { State.reset with runState := .error } ∧
    ¬ Fetches { State.reset with breakpoints := [bpAt 0] } ∧ ¬ Fetches { State.reset with pc := 1024 } ∧
    Fetches { prog 0 0x7ABC with cfg := noMaps } ∧ decode noMaps ((prog 0 0x7ABC).mem.read 0) = .error (.invalidOpcode 7) := by
  decide

/-- 60_exceptions.md R262: the operand fields of `STA [1023]`. -/
theorem test_trace_operand :
    (traceOf { prog 0 0x2BFF with traceEnabled := true }).map TraceLine.operand = some (some (2, 1023)) := by decide

end Sys2Proof.Tests
end

section
/-! PROOF. What an execution does not read: the flags (but for `Z` in JZ and JNZ), `IR` and the enables (10_state.md
R33, R39, R45). One relation between two executions, closed under the shared operations, gives both statements. -/

namespace Sys2Proof.Machine

variable {s t : State}

/-! ### The pieces of state that are not operands -/

/-- The flags, `IR` and the enables: what no operand, address or stack operation reads. -/
structure Unread where
  flags        : Flags
  ir           : Word
  debugEnabled : Bool
  traceEnabled : Bool

/-- The unread pieces of `s`. -/
def State.unread (s : State) : Unread :=
  { flags := s.flags, ir := s.ir, debugEnabled := s.debugEnabled, traceEnabled := s.traceEnabled }

/-- `s` with its unread pieces replaced. -/
def State.withUnread (s : State) (u : Unread) : State :=
  { s with flags := u.flags, ir := u.ir, debugEnabled := u.debugEnabled, traceEnabled := u.traceEnabled }

@[simp] theorem State.withUnread_pc (s : State) (u : Unread) : (s.withUnread u).pc = s.pc := rfl

theorem push_withUnread (v : Word) (s : State) (u : Unread) :
    push v (s.withUnread u) = (push v s).map (·.withUnread u) := by
  cases hpush : push v s with
  | ok t =>
    obtain ⟨hsp, hlt, rfl⟩ := push_ok_iff.mp hpush
    exact push_ok_iff.mpr ⟨hsp, hlt, rfl⟩
  | error e => exact push_error_iff.mpr (push_error_iff (s := s).mp hpush)

theorem popPc_withUnread (s : State) (u : Unread) :
    popPc (s.withUnread u) = (popPc s).map (·.withUnread u) := by
  cases hpop : popPc s with
  | ok t =>
    obtain ⟨htop, hlt, rfl⟩ := popPc_ok_iff.mp hpop
    exact popPc_ok_iff.mpr ⟨htop, hlt, rfl⟩
  | error e => exact popPc_error_iff.mpr (popPc_error_iff (s := s).mp hpop)

/-! ### Two executions that end alike -/

/-- `o` from `s` and `o'` from `s.withUnread u` are next states that differ in the unread pieces only. Each keeps the
unread pieces it began with, but for the flags: both runs write the same flags, or each keeps its own. -/
def EndsAlike (s : State) (u : Unread) (o o' : StepOutcome) : Prop :=
  ∃ (t : State) (f f' : Flags),
    o = .next (t.withUnread { s.unread with flags := f }) ∧ o' = .next (t.withUnread { u with flags := f' }) ∧
    (f' = f ∨ f = s.flags ∧ f' = u.flags)

namespace EndsAlike

variable {u : Unread} {α : Type}

/-- Both runs keep their flags. -/
theorem keep (ht : t.unread = s.unread) : EndsAlike s u (.next t) (.next (t.withUnread u)) :=
  ⟨t, s.flags, u.flags, congrArg (fun v => Host.Outcome.next (t.withUnread v)) ht, rfl, .inr ⟨rfl, rfl⟩⟩

/-- Both runs write the flags that `t` ends with. -/
theorem write (ht : t.unread = { s.unread with flags := t.flags }) :
    EndsAlike s u (.next t) (.next (t.withUnread { u with flags := t.flags })) :=
  ⟨t, t.flags, t.flags, congrArg (fun v => Host.Outcome.next (t.withUnread v)) ht, rfl, .inl rfl⟩

theorem error (e : ErrorCause) :
    EndsAlike s u (complete s (.error e)) (complete (s.withUnread u) (.error e)) :=
  keep (t := s.recordError e) rfl

/-- A first phase that comes to the same in both runs. -/
theorem bind (r : Except ErrorCause α) {k k' : α → Except ErrorCause State}
    (h : ∀ a, EndsAlike s u (complete s (k a)) (complete (s.withUnread u) (k' a))) :
    EndsAlike s u (complete s (r.bind k)) (complete (s.withUnread u) (r.bind k')) := by
  cases r with
  | ok a => exact h a
  | error e => exact error e

theorem map (r : Except ErrorCause α) {k k' : α → State} (h : ∀ a, EndsAlike s u (.next (k a)) (.next (k' a))) :
    EndsAlike s u (complete s (r.map k)) (complete (s.withUnread u) (r.map k')) := by
  cases r with
  | ok a => exact h a
  | error e => exact error e

end EndsAlike

theorem push_unread {v : Word} (h : push v s = .ok t) : t.unread = s.unread := by
  obtain ⟨-, -, rfl⟩ := push_ok_iff.mp h
  rfl

theorem popPc_unread (h : popPc s = .ok t) : t.unread = s.unread := by
  obtain ⟨-, -, rfl⟩ := popPc_ok_iff.mp h
  rfl

/-- Two executions that begin alike but for the unread pieces end alike; JZ and JNZ need the same `Z`. -/
theorem exec_endsAlike (i : Instr) (s : State) (u : Unread)
    (hz : (∃ target, i = .jz target ∨ i = .jnz target) → u.flags.z = s.flags.z) :
    EndsAlike s u (exec i s) (exec i (s.withUnread u)) := by
  cases i with
  | nop => exact .keep rfl
  | lda mode opd => exact .map (resolveValue mode opd s) fun _ => .write rfl
  | sta mode opd =>
    exact .bind (resolveAddr mode opd s) fun a => .map (checkAddress a) fun _ => .keep rfl
  | add mode opd => exact .map (resolveValue mode opd s) fun _ => .write rfl
  | sub mode opd => exact .map (resolveValue mode opd s) fun _ => .write rfl
  | mul mode opd => exact .map (resolveValue mode opd s) fun _ => .write rfl
  | div mode opd =>
    refine .bind (resolveValue mode opd s) fun v => ?_
    split
    · exact .error _
    · exact .write rfl
  | and mode opd => exact .map (resolveValue mode opd s) fun _ => .write rfl
  | or mode opd => exact .map (resolveValue mode opd s) fun _ => .write rfl
  | xor mode opd => exact .map (resolveValue mode opd s) fun _ => .write rfl
  | cmp mode opd => exact .map (resolveValue mode opd s) fun _ => .write rfl
  | jmp target => exact .keep rfl
  | jz target =>
    have hz' : (s.withUnread u).flags.z = s.flags.z := hz ⟨target, .inl rfl⟩
    simp only [exec, execJz, hz']
    split
    · exact .keep rfl
    · exact .keep rfl
  | jnz target =>
    have hz' : (s.withUnread u).flags.z = s.flags.z := hz ⟨target, .inr rfl⟩
    simp only [exec, execJnz, hz']
    split
    · exact .keep rfl
    · exact .keep rfl
  | jsr target =>
    refine .bind (checkAddress target.toNat) fun _ => ?_
    rw [State.withUnread_pc, push_withUnread]
    cases hpush : push s.pc s with
    | ok t =>
      have hkept : t.unread = s.unread := push_unread hpush
      exact .keep (t := t.jumpTo target) hkept
    | error e => exact .error e
  | rtsReturn =>
    simp only [exec, execRtsReturn, popPc_withUnread]
    cases hpop : popPc s with
    | ok t => exact .keep (popPc_unread hpop)
    | error e => exact .error e
  | rtsHalt code => exact .keep rfl

/-- No execution writes `IR`. -/
theorem exec_ir {i : Instr} (h : exec i s = .next t) : t.ir = s.ir := by
  obtain ⟨r, f, -, hrun, -, -⟩ := exec_endsAlike i s s.unread fun _ => rfl
  obtain rfl : t = r.withUnread { s.unread with flags := f } := Host.Outcome.next.inj (h.symm.trans hrun)
  rfl

/-! ### The step that fetches -/

/-- A step that fetches makes the fetch-phase writes and then rejects the word or goes on to the execute phase. -/
theorem beforeExecute_of_fetches (h : Fetches s) :
    (∃ opc, decode s.cfg (s.mem.read s.pc.toNat) = .error (.invalidOpcode opc) ∧
      beforeExecute s = Prepared.ofError (.invalidOpcode opc) (s.loadFetched (s.mem.read s.pc.toNat))) ∨
    ∃ i, decode s.cfg (s.mem.read s.pc.toNat) = .ok i ∧
      beforeExecute s = .run i (s.loadFetched (s.mem.read s.pc.toNat)) := by
  obtain ⟨hlive, hnobp, hpc⟩ := h
  have hmiss : hitTable s.pc s.breakpoints = none := hitTable_none_iff.mpr hnobp
  rcases beforeExecute_cases s with ⟨hhalt, -⟩ | ⟨herr, -⟩ | ⟨-, bs, hhit, -⟩ | ⟨-, -, hout, -⟩ | ⟨-, -, -, hbad⟩ |
    ⟨-, -, -, hrun⟩
  · exact absurd (.inl hhalt) hlive
  · exact absurd (.inr herr) hlive
  · rw [hmiss] at hhit; contradiction
  · omega
  · exact .inl hbad
  · exact .inr hrun

/-- After a step that fetches, `IR` is the fetched word. -/
theorem step_ir_of_fetches (h : Fetches s) (hstep : step s = .next t) : t.ir = s.mem.read s.pc.toNat := by
  unfold step at hstep
  rcases beforeExecute_of_fetches h with ⟨opc, -, hbefore⟩ | ⟨i, -, hbefore⟩ <;> rw [hbefore] at hstep
  · obtain rfl := Host.Outcome.next.inj hstep
    rfl
  · exact exec_ir hstep

/-! ### The obligations -/

/-- Settles O47: other flags are other unread pieces, so both executions end alike. -/
theorem flagReadersAreJzAndJnz : Obligations.FlagReadersAreJzAndJnz := by
  intro i s f hz
  obtain ⟨t, g, g', hrun, hrun', hflags⟩ := exec_endsAlike i s { s.unread with flags := f } hz
  exact ⟨_, _, hrun, hrun', rfl, hflags⟩

/-- Settles O48: the fetch writes `IR` and no execution does; another `IR` is another unread piece, so both executions
end alike, and with the same flags. -/
theorem irIsLatchedAndNotRead : Obligations.IrIsLatchedAndNotRead := by
  refine ⟨fun s t => step_ir_of_fetches, fun i s w => ?_⟩
  obtain ⟨t, f, f', hrun, hrun', hflags⟩ := exec_endsAlike i s { s.unread with ir := w } fun _ => rfl
  obtain rfl : f' = f := by
    rcases hflags with h | ⟨h, h'⟩
    · exact h
    · exact h'.trans h.symm
  exact ⟨_, hrun, hrun'⟩

end Sys2Proof.Machine
end

section
/-! PROOF. The encoder and the decoder on numbers (30_encoding.md R85, R87, R89): the fields of a word, as natural
numbers, are its quotients and remainders by the field weights 4096 and 1024. -/

namespace Sys2Proof

/-! ### Packing and extracting -/

/-- The encoder's shifts and `|` put the fields side by side, most significant first. -/
theorem Fields.toWord_eq_append (f : Fields) : f.toWord = (f.opc ++ f.mode ++ f.opd).setWidth 16 := by
  rw [BitVec.setWidth_append_append_eq_shiftLeft_setWidth_or, Fields.toWord]

/-- The fields do not overlap, so the encoder's `|` is a sum. -/
theorem Fields.toNat_toWord (f : Fields) :
    f.toWord.toNat = f.opc.toNat * 4096 + f.mode.toNat * 1024 + f.opd.toNat := by
  have hopd : f.opd.toNat < 2 ^ 10 := f.opd.isLt
  have hmode : f.mode.toNat < 2 ^ 2 := f.mode.isLt
  rw [Fields.toWord_eq_append, BitVec.setWidth_eq, BitVec.toNat_append, BitVec.toNat_append,
    ← Nat.shiftLeft_add_eq_or_of_lt hopd, ← Nat.shiftLeft_add_eq_or_of_lt hmode, Nat.shiftLeft_eq, Nat.shiftLeft_eq]
  omega

theorem Fields.toNat_opd_ofWord (w : Word) : (Fields.ofWord w).opd.toNat = w.toNat % 1024 := by
  simp [Fields.ofWord]

/-- Extraction gives back the operand field that was packed. -/
@[simp] theorem Fields.opd_ofWord_toWord (f : Fields) : (Fields.ofWord f.toWord).opd = f.opd := by
  apply BitVec.eq_of_toNat_eq
  rw [Fields.toNat_opd_ofWord, Fields.toNat_toWord]
  omega

/-- The encoder masks each input to its field: its residue modulo the field's range. -/
theorem toNat_encodeFields (o m p : Int) :
    ((encodeFields o m p).toNat : Int) = o % 16 * 4096 + m % 4 * 1024 + p % 1024 := by
  rw [encodeFields, Fields.toNat_toWord]
  simp only [BitVec.toNat_ofInt]
  omega

/-! ### The immediate -/

/-- Sign extension keeps the signed value of the field. -/
@[simp] theorem toInt_sext10 (opd : BitVec 10) : (sext10 opd).toInt = opd.toInt :=
  BitVec.toInt_signExtend_of_le (by decide)

theorem toInt_sext10_bounds (opd : BitVec 10) : -512 ≤ (sext10 opd).toInt ∧ (sext10 opd).toInt ≤ 511 := by
  rw [toInt_sext10]
  exact ⟨BitVec.le_toInt opd, BitVec.toInt_le⟩

/-- The immediate in the numbers of the word: the operand field, less 1024 when its bit 9 is set. -/
theorem Fields.toInt_imm_ofWord (w : Word) :
    (Fields.ofWord w).imm.toInt =
      if w.toNat % 1024 < 512 then ((w.toNat % 1024 : Nat) : Int) else ((w.toNat % 1024 : Nat) : Int) - 1024 := by
  have hsign : 2 * (w.toNat % 1024) < 2 ^ 10 ↔ w.toNat % 1024 < 512 := by omega
  rw [Fields.imm, toInt_sext10, BitVec.toInt_eq_toNat_cond, Fields.toNat_opd_ofWord]
  simp only [hsign]
  rfl

/-! ### RTS -/

/-- A word whose opcode code stands for `op` decodes to the instruction of `op` and the word's fields. -/
theorem decode_of_opcodeOf {c : Config} {w : Word} {op : Opcode} (h : c.opcodeOf (Fields.ofWord w).opc = some op) :
    decode c w = .ok (instrOf op (Fields.ofWord w).mode (Fields.ofWord w).opd) := by
  rw [decode, h]

theorem instrOf_rts_zero (mode : BitVec 2) : instrOf .rts mode 0 = .rtsReturn := rfl

theorem instrOf_rts_of_ne_zero (mode : BitVec 2) {opd : BitVec 10} (h : opd ≠ 0) :
    instrOf .rts mode opd = .rtsHalt opd := if_neg h

/-! ### The obligations -/

/-- Settles O2: the packed word is a sum of residues, and -1 has all ten bits set in the operand field. -/
theorem encoderMasksItsInputs : Obligations.EncoderMasksItsInputs := by
  refine ⟨toNat_encodeFields, fun o m => ?_⟩
  have hones : BitVec.ofInt 10 (-1) = 0x3FF := by decide
  rw [encodeFields, Fields.opd_ofWord_toWord, hones]

/-- Settles O4: sign extension keeps the field's signed value, which is its number, less 1024 from 512 on. -/
theorem immediateIsSignExtended : Obligations.ImmediateIsSignExtended :=
  ⟨Fields.toInt_imm_ofWord, toInt_sext10_bounds, by decide⟩

/-- Settles O5: an RTS word decodes by its operand alone, and a non-zero operand of ten bits is in 1..1023. -/
theorem rtsSplitsOnItsOperand : Obligations.RtsSplitsOnItsOperand := by
  intro c w hrts
  rw [decode_of_opcodeOf hrts]
  refine ⟨fun hzero => ?_, fun hne => ⟨?_, ?_, ?_⟩⟩
  · rw [hzero, instrOf_rts_zero]
  · rw [instrOf_rts_of_ne_zero _ hne]
  · exact Nat.pos_of_ne_zero fun h => hne (BitVec.eq_of_toNat_eq h)
  · exact Nat.le_of_lt_succ (Fields.ofWord w).opd.isLt

end Sys2Proof
end

section
/-! PROOF. The steps that end before the fetch (40_execution_cycle.md R101, R102): in a terminal state, and at an
enabled breakpoint. -/

namespace Sys2Proof.Machine

variable {s t : State}

/-! ### A step that ends before its execute phase -/

/-- The next state and the report of a step that the phases before the execute phase end. -/
theorem step_of_done {r : StepReport} (h : beforeExecute s = .done r t) : step s = .next t ∧ stepReport s = r := by
  constructor
  · rw [step, h]
  · rw [stepReport, h]

theorem beforeExecute_halted (h : s.runState = .halted) : beforeExecute s = .done (.halt s.exitCode) s := by
  rw [beforeExecute, h]

theorem beforeExecute_error (h : s.runState = .error) : beforeExecute s = .done (.error s.lastError) s := by
  rw [beforeExecute, h]

/-! ### The breakpoint check -/

theorem Breakpoint.enabledAt_iff {a : Nat} {b : Breakpoint} :
    b.enabledAt a = true ↔ b.enabled = true ∧ b.address.val = a := by
  rw [Breakpoint.enabledAt, Bool.and_eq_true, beq_iff_eq]

/-- In a table with at most one enabled slot per address, the breakpoint check hits whichever slot stands enabled at
`pc`: every slot before it is one that the check passes over. -/
theorem hitTable_of_enabledAt {pc : Word} {bs : List Breakpoint} {k : Nat} {b : Breakpoint}
    (huniq : bs.Pairwise fun c c' => ¬(c.enabled = true ∧ c'.enabled = true ∧ c.address = c'.address))
    (hk : bs[k]? = some b) (hb : b.enabledAt pc.toNat = true) :
    hitTable pc bs = some (bs.set k { b with hitCount := b.hitCount + 1 }) := by
  induction bs generalizing k with
  | nil => simp at hk
  | cons c rest ih =>
    obtain ⟨hc, hrest⟩ := List.pairwise_cons.mp huniq
    cases k with
    | zero =>
      obtain rfl : c = b := by simpa using hk
      rw [hitTable, if_pos hb, List.set_cons_zero]
    | succ k =>
      have hk' : rest[k]? = some b := by simpa using hk
      have hmiss : ¬ c.enabledAt pc.toNat = true := fun hhit => by
        obtain ⟨hen, haddr⟩ := Breakpoint.enabledAt_iff.mp hb
        obtain ⟨hen', haddr'⟩ := Breakpoint.enabledAt_iff.mp hhit
        exact hc b (List.mem_of_getElem? hk') ⟨hen', hen, Fin.ext (haddr'.trans haddr.symm)⟩
      rw [hitTable, if_neg hmiss, ih hrest hk', Option.map_some, List.set_cons_succ]

/-- A hit ends the step before the fetch. -/
theorem beforeExecute_of_hit {bs : List Breakpoint} (hlive : ¬ s.runState.Terminal)
    (hhit : hitTable s.pc s.breakpoints = some bs) :
    beforeExecute s = .done .breakpoint ((s.setBreakpoints bs).setRunState .breakpoint) := by
  rw [beforeExecute_live hlive, checkBreakpoint, hhit]

/-! ### The obligations -/

/-- Settles O11: a terminal state ends the step in itself. -/
theorem terminalStatesDoNothing : Obligations.TerminalStatesDoNothing :=
  ⟨fun _ hhalted => step_of_done (beforeExecute_halted hhalted),
    fun _ herror => step_of_done (beforeExecute_error herror)⟩

/-- Settles O12: the only enabled slot at `PC` is the one the check hits, and a hit ends the step. -/
theorem breakpointStopsBeforeTheFetch : Obligations.BreakpointStopsBeforeTheFetch := by
  intro s k b hlive hwf hk hen haddr
  obtain ⟨-, huniq⟩ := hwf
  have hhit := hitTable_of_enabledAt huniq hk (Breakpoint.enabledAt_iff.mpr ⟨hen, haddr⟩)
  exact step_of_done (beforeExecute_of_hit hlive hhit)

end Sys2Proof.Machine
end

section
/-! PROOF. The logical instructions of the ALU (43_alu.md R162): an instruction whose operand can be read ends in the
write of its result. -/

namespace Sys2Proof.Machine

variable {s : State} {mode : BitVec 2} {opd : BitVec 10} {v : Word}

/-! ### The operand -/

/-- A read at a natural number can only fail above the array. -/
theorem memRead_natCast_ok_iff {a : Nat} : memRead a s = .ok v ↔ a < 1024 ∧ v = s.mem.read a := by
  rw [memRead_ok_iff, Int.toNat_natCast]
  simp

/-- A 10-bit operand is always an address of the array (41_addressing.md R122). -/
theorem memRead_operand (opd : BitVec 10) (s : State) : memRead opd.toNat s = .ok (s.mem.read opd.toNat) :=
  memRead_natCast_ok_iff.mpr ⟨opd.isLt, rfl⟩

theorem memRead_indexedAddress_ok_iff :
    memRead (indexedAddress opd s) s = .ok v ↔ indexSum opd s < 1024 ∧ v = s.mem.read (indexSum opd s) := by
  rw [indexedAddress, ← Nat.cast_add, memRead_natCast_ok_iff]

/-- The resolver answers with `v` exactly where the spec's words name `v` (41_addressing.md R121 to R124). -/
theorem resolveValue_ok_iff : resolveValue mode opd s = .ok v ↔ ReadsOperand s mode opd v := by
  unfold resolveValue ReadsOperand
  cases s.cfg.modeOf mode with
  | none => simp
  | some m =>
    cases m with
    | immediate => simp [sext10, eq_comm]
    | direct => simp [memRead_operand, eq_comm]
    | indirect => simp [memRead_operand, memRead_ok_iff]
    | indexed => simp [memRead_indexedAddress_ok_iff]

/-- Where the operand is `v`, an instruction that turns its operand into a state by `k` ends in `k v`. -/
theorem complete_map_of_readsOperand (hv : ReadsOperand s mode opd v) (k : Word → State) :
    complete s ((resolveValue mode opd s).map k) = .next (k v) := by
  rw [resolveValue_ok_iff.mpr hv, Except.map, complete_ok]

/-! ### The obligations -/

/-- Settles O31: each of the three writes its bitwise result by `State.writeLogic`, the logical flag rule. -/
theorem andOrXorAreBitwise : Obligations.AndOrXorAreBitwise := by
  intro s mode opd v hv p hp
  suffices hrun : exec p.1 s = .next (s.writeLogic p.2) from hrun
  simp only [List.mem_cons, List.not_mem_nil, or_false] at hp
  obtain rfl | rfl | rfl := hp
  · exact complete_map_of_readsOperand hv fun v => s.writeLogic (s.a &&& v)
  · exact complete_map_of_readsOperand hv fun v => s.writeLogic (s.a ||| v)
  · exact complete_map_of_readsOperand hv fun v => s.writeLogic (s.a ^^^ v)

end Sys2Proof.Machine
end

section
/-! PROOF. The decoder and the encoder against each other (30_encoding.md R86, R90, R91): extracting and packing are
inverse, and an instruction is what the decoder makes of its own opcode and fields. -/

namespace Sys2Proof

/-! ### Fields and words -/

theorem Fields.toNat_opc_ofWord (w : Word) : (Fields.ofWord w).opc.toNat = w.toNat / 4096 := by
  have hw : w.toNat < 65536 := w.isLt
  simp only [Fields.ofWord, BitVec.extractLsb'_toNat, Nat.shiftRight_eq_div_pow]
  omega

theorem Fields.toNat_mode_ofWord (w : Word) : (Fields.ofWord w).mode.toNat = w.toNat / 1024 % 4 := by
  simp [Fields.ofWord, Nat.shiftRight_eq_div_pow]

/-- Extraction gives back the opcode code that was packed. -/
@[simp] theorem Fields.opc_ofWord_toWord (f : Fields) : (Fields.ofWord f.toWord).opc = f.opc := by
  apply BitVec.eq_of_toNat_eq
  rw [Fields.toNat_opc_ofWord, Fields.toNat_toWord]
  omega

/-- Extraction gives back the mode code that was packed. -/
@[simp] theorem Fields.mode_ofWord_toWord (f : Fields) : (Fields.ofWord f.toWord).mode = f.mode := by
  apply BitVec.eq_of_toNat_eq
  rw [Fields.toNat_mode_ofWord, Fields.toNat_toWord]
  omega

/-- Extraction undoes packing. -/
@[simp] theorem Fields.ofWord_toWord (f : Fields) : Fields.ofWord f.toWord = f :=
  calc Fields.ofWord f.toWord
      = ⟨(Fields.ofWord f.toWord).opc, (Fields.ofWord f.toWord).mode, (Fields.ofWord f.toWord).opd⟩ := rfl
    _ = f := by rw [Fields.opc_ofWord_toWord, Fields.mode_ofWord_toWord, Fields.opd_ofWord_toWord]

/-- Packing undoes extraction: a number is the sum of its parts by the field weights. -/
theorem Fields.toWord_ofWord (w : Word) : (Fields.ofWord w).toWord = w := by
  apply BitVec.eq_of_toNat_eq
  rw [Fields.toNat_toWord, Fields.toNat_opc_ofWord, Fields.toNat_mode_ofWord, Fields.toNat_opd_ofWord]
  omega

/-! ### Instructions and fields -/

theorem instrOf_fields {i : Instr} (h : i.haltCodeNonzero = true) : instrOf i.opcode i.modeField i.opdField = i := by
  cases i with
  | nop => exact Laws.Assembled.nop h
  | lda mode opd => exact Laws.Assembled.lda mode opd h
  | sta mode opd => exact Laws.Assembled.sta mode opd h
  | add mode opd => exact Laws.Assembled.add mode opd h
  | sub mode opd => exact Laws.Assembled.sub mode opd h
  | mul mode opd => exact Laws.Assembled.mul mode opd h
  | div mode opd => exact Laws.Assembled.div mode opd h
  | and mode opd => exact Laws.Assembled.and mode opd h
  | or mode opd => exact Laws.Assembled.or mode opd h
  | xor mode opd => exact Laws.Assembled.xor mode opd h
  | cmp mode opd => exact Laws.Assembled.cmp mode opd h
  | jmp target => exact Laws.Assembled.jmp target h
  | jz target => exact Laws.Assembled.jz target h
  | jnz target => exact Laws.Assembled.jnz target h
  | jsr target => exact Laws.Assembled.jsr target h
  | rtsReturn => exact Laws.Assembled.rtsReturn h
  | rtsHalt code => exact Laws.Assembled.rtsHalt code h

@[simp] theorem instrOf_opcode (op : Opcode) (mode : BitVec 2) (opd : BitVec 10) : (instrOf op mode opd).opcode = op := by
  cases op with
  | rts =>
    by_cases h : opd = 0
    · rw [h, instrOf_rts_zero]; rfl
    · rw [instrOf_rts_of_ne_zero mode h]; rfl
  | _ => rfl

@[simp] theorem instrOf_haltCodeNonzero (op : Opcode) (mode : BitVec 2) (opd : BitVec 10) :
    (instrOf op mode opd).haltCodeNonzero = true := by
  cases op with
  | rts =>
    by_cases h : opd = 0
    · rw [h, instrOf_rts_zero]; rfl
    · rw [instrOf_rts_of_ne_zero mode h]; exact bne_iff_ne.mpr h
  | _ => rfl

/-- A control transfer does not read its mode field (30_encoding.md R91). -/
theorem instrOf_mode_irrelevant {op : Opcode} (h : op ∈ [Opcode.jmp, .jz, .jnz, .jsr, .rts]) (mode mode' : BitVec 2)
    (opd : BitVec 10) : instrOf op mode opd = instrOf op mode' opd := by
  simp only [List.mem_cons, List.not_mem_nil, or_false] at h
  obtain rfl | rfl | rfl | rfl | rfl := h <;> rfl

/-! ### The decoder -/

/-- The decoder answers exactly the instruction of an assigned opcode code and the word's fields. -/
theorem decode_ok_iff {c : Config} {w : Word} {i : Instr} :
    decode c w = .ok i ↔ ∃ op, c.opcodeOf (Fields.ofWord w).opc = some op ∧
      i = instrOf op (Fields.ofWord w).mode (Fields.ofWord w).opd := by
  unfold decode
  cases c.opcodeOf (Fields.ofWord w).opc <;> simp [eq_comm]

/-- The decoder rejects exactly the words with an unassigned opcode code, by that code. -/
theorem decode_error_iff {c : Config} {w : Word} {e : DecodeError} :
    decode c w = .error e ↔ e = .invalidOpcode (Fields.ofWord w).opc ∧ c.opcodeOf (Fields.ofWord w).opc = none := by
  unfold decode
  cases c.opcodeOf (Fields.ofWord w).opc <;> simp [eq_comm]

/-- An opcode that some code stands for has a code. -/
theorem Config.isSome_codeOf {c : Config} {code : BitVec 4} {op : Opcode} (h : c.opcodeOf code = some op) :
    (c.codeOf op).isSome = true := by
  obtain ⟨row, hrow, rfl⟩ := Option.map_eq_some_iff.mp h
  rw [Config.codeOf, Option.isSome_map, List.find?_isSome]
  exact ⟨row, List.mem_of_find?_eq_some hrow, beq_self_eq_true _⟩

theorem Instr.wf_iff {c : Config} {i : Instr} :
    i.wf c = true ↔ (c.codeOf i.opcode).isSome = true ∧ i.haltCodeNonzero = true := by
  rw [Instr.wf, Bool.and_eq_true]

/-- Every decoded instruction is well formed. -/
theorem wf_of_decode {c : Config} {w : Word} {i : Instr} (h : decode c w = .ok i) : i.wf c = true := by
  obtain ⟨op, hop, rfl⟩ := decode_ok_iff.mp h
  exact Instr.wf_iff.mpr ⟨by rw [instrOf_opcode]; exact Config.isSome_codeOf hop, instrOf_haltCodeNonzero ..⟩

theorem defaultConfig_opcodeOf_total : ∀ opc : BitVec 4, ∃ op, defaultConfig.opcodeOf opc = some op := by
  have h : ∀ opc : BitVec 4, (defaultConfig.opcodeOf opc).isSome = true := by decide
  exact fun opc => Option.isSome_iff_exists.mp (h opc)

theorem defaultConfig_modeOf_total : ∀ mode : BitVec 2, ∃ m, defaultConfig.modeOf mode = some m := by
  have h : ∀ mode : BitVec 2, (defaultConfig.modeOf mode).isSome = true := by decide
  exact fun mode => Option.isSome_iff_exists.mp (h mode)

/-! ### The obligations -/

/-- Settles O3: the packed code stands for the opcode because the opcode table is a map, and an instruction is what the
decoder makes of its own opcode and fields. -/
theorem decodeOfEncodeIsTheInstruction : Obligations.DecodeOfEncodeIsTheInstruction := by
  intro c i hc hi
  obtain ⟨hcode, hhalt⟩ := Instr.wf_iff.mp hi
  obtain ⟨code, hcode⟩ := Option.isSome_iff_exists.mp hcode
  refine ⟨_, by rw [encode, hcode, Option.map_some], decode_ok_iff.mpr ⟨i.opcode, ?_, ?_⟩⟩
  · rw [Fields.ofWord_toWord]
    exact Config.opcodeOf_codeOf hc hcode
  · rw [Fields.ofWord_toWord, instrOf_fields hhalt]

/-- Settles O1: both ways, field by field on numbers. -/
theorem fieldsAndWordsAgreeBothWays : Obligations.FieldsAndWordsAgreeBothWays :=
  ⟨Fields.ofWord_toWord, Fields.toWord_ofWord⟩

/-- Settles O6: each of the sixteen opcode codes stands for an opcode, and a decoded instruction is well formed. -/
theorem everyWordIsAnInstructionByDefault : Obligations.EveryWordIsAnInstructionByDefault := by
  refine ⟨fun w => ?_, defaultConfig_modeOf_total⟩
  obtain ⟨op, hop⟩ := defaultConfig_opcodeOf_total (Fields.ofWord w).opc
  exact ⟨_, decode_of_opcodeOf hop, wf_of_decode (decode_of_opcodeOf hop)⟩

/-- Settles O7: NOP has no fields, and the five control transfers have the operand field alone. -/
theorem unreadFieldsDoNotMatter : Obligations.UnreadFieldsDoNotMatter := by
  intro c w w' hopc
  refine ⟨fun hnop => ?_, fun hopd op hmem hop => ?_⟩
  · rw [decode_of_opcodeOf hnop, decode_of_opcodeOf (hopc ▸ hnop)]
    rfl
  · rw [decode_of_opcodeOf hop, decode_of_opcodeOf (hopc ▸ hop), hopd, instrOf_mode_irrelevant hmem]

/-- Settles O8: a decoded instruction has the opcode its code stands for, and RTS halts with a non-zero operand only. -/
theorem decoderAnswersWellFormedInstructions : Obligations.DecoderAnswersWellFormedInstructions :=
  fun _ _ => ⟨fun _ => wf_of_decode, fun _ => decode_error_iff.mp⟩

/-- Settles O9: the decoder evaluated on the eight words. -/
theorem workedWordsDecode : Obligations.WorkedWordsDecode := by
  unfold Obligations.WorkedWordsDecode
  decide

end Sys2Proof
end

section
/-! PROOF. The resolver (41_addressing.md R120 to R127): what it answers, as a value and as an address, and which errors
it raises, mode by mode. -/

namespace Sys2Proof.Machine

variable {s : State} {mode : BitVec 2} {opd : BitVec 10} {a : Nat} {e : ErrorCause}

/-- The address check of the sum of Indexed mode, which is never negative. -/
theorem checkAddress_indexedAddress_ok_iff :
    checkAddress (indexedAddress opd s) = .ok a ↔ indexSum opd s < 1024 ∧ a = indexSum opd s := by
  rw [checkAddress_ok_iff, indexedAddress, ← Nat.cast_add, Int.toNat_natCast, indexSum]
  omega

theorem checkAddress_indexedAddress_error_iff :
    checkAddress (indexedAddress opd s) = .error e ↔ 1024 ≤ indexSum opd s ∧ e = .invalidAddress (indexSum opd s) := by
  rw [checkAddress_error_iff, indexedAddress, ← Nat.cast_add]
  have hsum : ((opd.toNat + s.x.toNat : Nat) : Int) < 0 ∨ (1024 : Int) ≤ (opd.toNat + s.x.toNat : Nat) ↔
      1024 ≤ opd.toNat + s.x.toNat := by omega
  rw [hsum]

/-- The resolver raises `e` for a read exactly where the spec's words do. -/
theorem resolveValue_error_iff : resolveValue mode opd s = .error e ↔ ReadFails s mode opd e := by
  unfold resolveValue ReadFails
  cases s.cfg.modeOf mode with
  | none => simp [eq_comm]
  | some m =>
    cases m with
    | immediate => simp
    | direct => simp [memRead_operand]
    | indirect => simp [memRead_operand, memRead_error_iff]
    | indexed => simp [memRead, checkAddress_indexedAddress_error_iff]

/-- The resolver answers with address `a` exactly where the spec's words name `a`. -/
theorem resolveAddr_ok_iff : resolveAddr mode opd s = .ok a ↔ StoresTo s mode opd a := by
  unfold resolveAddr StoresTo
  cases s.cfg.modeOf mode with
  | none => simp
  | some m =>
    cases m with
    | immediate => simp
    | direct => simp [eq_comm]
    | indirect => simp [memRead_operand, checkAddress_ok_iff]
    | indexed => simp [checkAddress_indexedAddress_ok_iff]

/-- The resolver raises `e` for a store exactly where the spec's words do. -/
theorem resolveAddr_error_iff : resolveAddr mode opd s = .error e ↔ StoreFails s mode opd e := by
  unfold resolveAddr StoreFails ReadFails
  cases s.cfg.modeOf mode with
  | none => simp [eq_comm]
  | some m =>
    cases m with
    | immediate => simp [eq_comm]
    | direct => simp
    | indirect => simp [memRead_operand, checkAddress_error_iff]
    | indexed => simp [checkAddress_indexedAddress_error_iff]

/-- The address of a store is one of the array. -/
theorem storesTo_lt (h : StoresTo s mode opd a) : a < 1024 := by
  obtain ⟨-, rfl⟩ | ⟨-, hlow, hhigh, rfl⟩ | ⟨-, hlt, rfl⟩ := h
  · exact opd.isLt
  · omega
  · exact hlt

/-! ### The obligation -/

/-- Settles O22: the resolver, mode by mode, against the spec's words. -/
theorem resolverFollowsTheModes : Obligations.ResolverFollowsTheModes :=
  fun _ _ _ => ⟨fun _ => resolveValue_ok_iff, fun _ => resolveValue_error_iff, fun _ => resolveAddr_ok_iff,
    fun _ => resolveAddr_error_iff, fun _ h => storesTo_lt (resolveAddr_ok_iff.mp h)⟩

end Sys2Proof.Machine
end

section
/-! PROOF. What an instruction can do, said once: the state its writes lead to (`Writes`), and the errors it can raise
with their causes (`Raises`). The errors and the frames of the execute phase follow by cases. -/

namespace Sys2Proof.Machine

/-! ### Writes and errors -/

/-- What an operand-reading instruction makes of its operand's value `v`: it writes `A` and the flags, `C` and `V`
alike, or it is DIV by zero. CMP writes back the `A` it found. -/
inductive UsesOperand (s : State) (mode : BitVec 2) (opd : BitVec 10) (v : Word) :
    Instr → Except ErrorCause State → Prop
  | writes {i : Instr} (a : Word) (f : Flags) (hf : f.c = f.v) (hcmp : i.opcode = .cmp → a = s.a) :
      UsesOperand s mode opd v i (.ok ((s.setA a).setFlags f))
  | divides (hv : v = 0) : UsesOperand s mode opd v (.div mode opd) (.error .divisionByZero)

/-- `i` executed in `s` can end, with all its writes made, in the state given. -/
inductive Writes (s : State) : Instr → State → Prop
  | value {i : Instr} {mode : BitVec 2} {opd : BitVec 10} (hi : i ∈ valueInstrs mode opd) (a : Word) (f : Flags)
      (hf : f.c = f.v) (hcmp : i.opcode = .cmp → a = s.a) : Writes s i ((s.setA a).setFlags f)
  | store {mode : BitVec 2} {opd : BitVec 10} {k : Nat} (hk : StoresTo s mode opd k) :
      Writes s (.sta mode opd) (s.setMem (s.mem.write k s.a))
  /-- NOP, and the jumps, taken or not. -/
  | transfer {i : Instr} (hi : i.opcode ∈ [Opcode.nop, .jmp, .jz, .jnz]) (pc : Word) : Writes s i (s.setPc pc)
  | call (target : BitVec 10) (hroom : s.sp ≠ 0) (hsp : s.sp.toNat < 1024) :
      Writes s (.jsr target) (((s.setMem (s.mem.write s.sp.toNat s.pc)).setSp (s.sp - 1)).jumpTo target)
  | ret (hpending : s.sp < s.cfg.stackTop) (hsp : (s.sp + 1).toNat < 1024) :
      Writes s .rtsReturn ((s.setSp (s.sp + 1)).setPc (s.mem.read (s.sp + 1).toNat))
  | halt (code : BitVec 10) : Writes s (.rtsHalt code) (s.halt code)

/-- `i` executed in `s` raises the error given (60_exceptions.md R220, "raised by"). The two `Outside` causes need an
`SP` that no run reaches. -/
inductive Raises (s : State) : Instr → ErrorCause → Prop
  | operand {i : Instr} {mode : BitVec 2} {opd : BitVec 10} {e : ErrorCause} (hi : i ∈ valueInstrs mode opd)
      (h : ReadFails s mode opd e) : Raises s i e
  | store {mode : BitVec 2} {opd : BitVec 10} {e : ErrorCause} (h : StoreFails s mode opd e) :
      Raises s (.sta mode opd) e
  | divide {mode : BitVec 2} {opd : BitVec 10} (h : ReadsOperand s mode opd 0) :
      Raises s (.div mode opd) .divisionByZero
  | call (target : BitVec 10) (h : s.sp = 0) : Raises s (.jsr target) .stackOverflow
  | callOutside (target : BitVec 10) (h : 1024 ≤ s.sp.toNat) : Raises s (.jsr target) (.invalidAddress s.sp.toNat)
  | ret (h : s.cfg.stackTop ≤ s.sp) : Raises s .rtsReturn .stackUnderflow
  | retOutside (hpending : s.sp < s.cfg.stackTop) (h : 1024 ≤ (s.sp + 1).toNat) :
      Raises s .rtsReturn (.invalidAddress (s.sp + 1).toNat)

/-- `i` executed in `s` can end in the state given: with its writes made, or with an error recorded and nothing else
done. -/
inductive Ends (s : State) (i : Instr) : State → Prop
  | done {t : State} (h : Writes s i t) : Ends s i t
  | failed {e : ErrorCause} (h : Raises s i e) : Ends s i (s.recordError e)

variable {i : Instr} {s t : State} {mode : BitVec 2} {opd : BitVec 10} {e : ErrorCause}

/-! ### The nine instructions that read an operand -/

/-- An instruction with no check after the resolver is one that writes for every operand value. -/
theorem usesOperand_of_map {k : Word → State} (hrun : exec i s = complete s ((resolveValue mode opd s).map k))
    (huse : ∀ v, UsesOperand s mode opd v i (.ok (k v))) :
    ∃ k' : Word → Except ErrorCause State,
      exec i s = complete s ((resolveValue mode opd s).bind k') ∧ ∀ v, UsesOperand s mode opd v i (k' v) := by
  refine ⟨fun v => .ok (k v), hrun.trans ?_, huse⟩
  cases resolveValue mode opd s <;> rfl

/-- The nine resolve their operand first, and go on with its value (41_addressing.md R120). -/
theorem exec_valueInstr (hi : i ∈ valueInstrs mode opd) (s : State) :
    ∃ k : Word → Except ErrorCause State,
      exec i s = complete s ((resolveValue mode opd s).bind k) ∧ ∀ v, UsesOperand s mode opd v i (k v) := by
  simp only [valueInstrs, List.mem_cons, List.not_mem_nil, or_false] at hi
  obtain rfl | rfl | rfl | rfl | rfl | rfl | rfl | rfl | rfl := hi
  · exact usesOperand_of_map rfl fun v => .writes v (loadFlags v) rfl nofun
  · exact usesOperand_of_map rfl fun v => .writes _ (arithFlags (s.a.toInt + v.toInt)) rfl nofun
  · exact usesOperand_of_map rfl fun v => .writes _ (arithFlags (s.a.toInt - v.toInt)) rfl nofun
  · exact usesOperand_of_map rfl fun v => .writes _ (arithFlags (s.a.toInt * v.toInt)) rfl nofun
  · refine ⟨_, rfl, fun v => ?_⟩
    split
    · exact .divides (BitVec.eq_of_toInt_eq ‹_›)
    · exact .writes _ (arithFlags (quotient s.a.toInt v.toInt)) rfl nofun
  · exact usesOperand_of_map rfl fun v => .writes (s.a &&& v) (logicFlags (s.a &&& v)) rfl nofun
  · exact usesOperand_of_map rfl fun v => .writes (s.a ||| v) (logicFlags (s.a ||| v)) rfl nofun
  · exact usesOperand_of_map rfl fun v => .writes (s.a ^^^ v) (logicFlags (s.a ^^^ v)) rfl nofun
  · exact usesOperand_of_map rfl fun v => .writes s.a (arithFlags (s.a.toInt - v.toInt)) rfl fun _ => rfl

theorem opcode_of_mem_valueInstrs (hi : i ∈ valueInstrs mode opd) :
    i.opcode ∈ [Opcode.lda, .add, .sub, .mul, .div, .and, .or, .xor, .cmp] := by
  simpa [valueInstrs, Instr.opcode] using List.mem_map_of_mem (f := Instr.opcode) hi

/-! ### Each instruction's result -/

theorem exec_sta_of_storesTo {k : Nat} (h : StoresTo s mode opd k) :
    exec (.sta mode opd) s = .next (s.setMem (s.mem.write k s.a)) := by
  have hwrite : memWrite k s.a s = .ok (s.setMem (s.mem.write k s.a)) :=
    memWrite_ok_iff.mpr ⟨by omega, by exact_mod_cast storesTo_lt h, rfl⟩
  rw [exec, execSta, resolveAddr_ok_iff.mpr h]
  simp only [Except.bind, hwrite, complete_ok]

/-- A 10-bit target passes JSR's check, so the push decides (44_control.md R194). -/
theorem exec_jsr (target : BitVec 10) (s : State) :
    exec (.jsr target) s = complete s ((push s.pc s).map fun t => t.jumpTo target) := by
  have htarget : checkAddress target.toNat = .ok target.toNat :=
    checkAddress_ok_iff.mpr ⟨by omega, by exact_mod_cast target.isLt, rfl⟩
  rw [exec, execJsr, htarget]
  rfl

theorem exec_jsr_of_room (target : BitVec 10) (hroom : s.sp ≠ 0) (hsp : s.sp.toNat < 1024) :
    exec (.jsr target) s =
      .next (((s.setMem (s.mem.write s.sp.toNat s.pc)).setSp (s.sp - 1)).jumpTo target) := by
  rw [exec_jsr, push_ok_iff.mpr ⟨hroom, hsp, rfl⟩]
  rfl

theorem exec_rtsReturn_of_pending (hpending : s.sp < s.cfg.stackTop) (hsp : (s.sp + 1).toNat < 1024) :
    exec .rtsReturn s = .next ((s.setSp (s.sp + 1)).setPc (s.mem.read (s.sp + 1).toNat)) := by
  rw [exec, execRtsReturn, popPc_ok_iff.mpr ⟨hpending, hsp, rfl⟩]
  rfl

/-- Whatever raises an error takes the error path, and does nothing else (60_exceptions.md R230). -/
theorem exec_of_raises (h : Raises s i e) : exec i s = .next (s.recordError e) := by
  cases h with
  | operand hi h =>
    obtain ⟨k, hk, -⟩ := exec_valueInstr hi s
    rw [hk, resolveValue_error_iff.mpr h]
    rfl
  | store h =>
    rw [exec, execSta, resolveAddr_error_iff.mpr h]
    rfl
  | divide h =>
    rw [exec, execDiv, resolveValue_ok_iff.mpr h]
    rfl
  | call target h =>
    rw [exec_jsr, push_error_iff.mpr (.inl ⟨h, rfl⟩)]
    rfl
  | callOutside target h =>
    rw [exec_jsr, push_error_iff.mpr (.inr ⟨h, rfl⟩)]
    rfl
  | ret h =>
    rw [exec, execRtsReturn, popPc_error_iff.mpr (.inl ⟨h, rfl⟩)]
    rfl
  | retOutside hpending h =>
    rw [exec, execRtsReturn, popPc_error_iff.mpr (.inr ⟨hpending, h, rfl⟩)]
    rfl

/-- How each of the nine ends: with `A` and the flags written, or in an error. -/
theorem exec_valueInstr_next (hi : i ∈ valueInstrs mode opd) (h : exec i s = .next t) :
    (∃ a f, f.c = f.v ∧ (i.opcode = .cmp → a = s.a) ∧ t = (s.setA a).setFlags f) ∨
      ∃ e, Raises s i e ∧ t = s.recordError e := by
  obtain ⟨k, hk, huse⟩ := exec_valueInstr hi s
  rw [hk] at h
  rcases complete_next h with hok | ⟨e, herr, rfl⟩
  · obtain ⟨v, -, hkv⟩ := bind_ok_iff.mp hok
    have hv := huse v
    rw [hkv] at hv
    cases hv with
    | writes a f hf hcmp => exact .inl ⟨a, f, hf, hcmp, rfl⟩
  · refine .inr ⟨e, ?_, rfl⟩
    rcases bind_error_iff.mp herr with hfail | ⟨v, hread, hkv⟩
    · exact .operand hi (resolveValue_error_iff.mp hfail)
    · have hv := huse v
      rw [hkv] at hv
      cases hv with
      | divides hzero => exact .divide (hzero ▸ resolveValue_ok_iff.mp hread)

theorem ends_of_exec_valueInstr (hi : i ∈ valueInstrs mode opd) (h : exec i s = .next t) : Ends s i t := by
  rcases exec_valueInstr_next hi h with ⟨a, f, hf, hcmp, rfl⟩ | ⟨e, hraises, rfl⟩
  · exact .done (.value hi a f hf hcmp)
  · exact .failed hraises

/-- How every instruction ends. -/
theorem ends_of_exec (h : exec i s = .next t) : Ends s i t := by
  cases i with
  | lda mode opd | add mode opd | sub mode opd | mul mode opd | div mode opd | and mode opd | or mode opd
  | xor mode opd | cmp mode opd => exact ends_of_exec_valueInstr (mode := mode) (opd := opd) (by simp [valueInstrs]) h
  | nop =>
    obtain rfl := Host.Outcome.next.inj h
    exact .done (.transfer (by simp [Instr.opcode]) s.pc)
  | jmp target =>
    obtain rfl := Host.Outcome.next.inj h
    exact .done (.transfer (by simp [Instr.opcode]) (zext10 target))
  | jz target =>
    obtain rfl := Host.Outcome.next.inj h
    split
    · exact .done (.transfer (by simp [Instr.opcode]) (zext10 target))
    · exact .done (.transfer (by simp [Instr.opcode]) s.pc)
  | jnz target =>
    obtain rfl := Host.Outcome.next.inj h
    split
    · exact .done (.transfer (by simp [Instr.opcode]) s.pc)
    · exact .done (.transfer (by simp [Instr.opcode]) (zext10 target))
  | sta mode opd =>
    cases hr : resolveAddr mode opd s with
    | ok k =>
      rw [exec_sta_of_storesTo (resolveAddr_ok_iff.mp hr)] at h
      obtain rfl := Host.Outcome.next.inj h
      exact .done (.store (resolveAddr_ok_iff.mp hr))
    | error e =>
      have hraises : Raises s (.sta mode opd) e := .store (resolveAddr_error_iff.mp hr)
      obtain rfl := Host.Outcome.next.inj ((exec_of_raises hraises).symm.trans h)
      exact .failed hraises
  | jsr target =>
    rw [exec_jsr] at h
    rcases complete_next h with hok | ⟨e, herr, rfl⟩
    · obtain ⟨u, hpush, rfl⟩ := map_ok_iff.mp hok
      obtain ⟨hroom, hsp, rfl⟩ := push_ok_iff.mp hpush
      exact .done (.call target hroom hsp)
    · rcases push_error_iff.mp (map_error_iff.mp herr) with ⟨h0, rfl⟩ | ⟨hout, rfl⟩
      · exact .failed (.call target h0)
      · exact .failed (.callOutside target hout)
  | rtsReturn =>
    rcases complete_next h with hok | ⟨e, herr, rfl⟩
    · obtain ⟨hpending, hsp, rfl⟩ := popPc_ok_iff.mp hok
      exact .done (.ret hpending hsp)
    · rcases popPc_error_iff.mp herr with ⟨hnone, rfl⟩ | ⟨hpending, hout, rfl⟩
      · exact .failed (.ret hnone)
      · exact .failed (.retOutside hpending hout)
  | rtsHalt code =>
    obtain rfl := Host.Outcome.next.inj h
    exact .done (.halt code)

/-- No execution faults or refuses. -/
theorem exec_total (i : Instr) (s : State) : ∃ t, exec i s = .next t := by
  obtain ⟨_, _, _, hrun, -, -⟩ := exec_endsAlike i s s.unread fun _ => rfl
  exact ⟨_, hrun⟩

end Sys2Proof.Machine
end

section
/-! PROOF. What a step can do, said once (`StepsTo`): the next state and the report, for each way the phases of a step
can go (40_execution_cycle.md R101 to R109). The statements about steps follow by cases. -/

namespace Sys2Proof.Machine

/-! ### A step and its report -/

/-- A step from `s` can lead to the state given, with the report given. -/
inductive StepsTo (s : State) : State → StepReport → Prop
  | halted (h : s.runState = .halted) : StepsTo s s (.halt s.exitCode)
  | error (h : s.runState = .error) : StepsTo s s (.error s.lastError)
  | breakpoint {bs : List Breakpoint} (hlive : ¬ s.runState.Terminal) (hhit : hitTable s.pc s.breakpoints = some bs) :
      StepsTo s ((s.setBreakpoints bs).setRunState .breakpoint) .breakpoint
  | pcOutOfBounds (hlive : ¬ s.runState.Terminal) (hpc : 1024 ≤ s.pc.toNat) :
      StepsTo s (s.recordError (.pcOutOfBounds s.pc)) (.error (some ⟨.pcOutOfBounds s.pc, s.pc⟩))
  | invalidOpcode {opc : BitVec 4} (hfetch : Fetches s)
      (hdecode : decode s.cfg (s.mem.read s.pc.toNat) = .error (.invalidOpcode opc)) :
      StepsTo s ((Fetched s).recordError (.invalidOpcode opc)) (.error (some ⟨.invalidOpcode opc, s.pc + 1⟩))
  | execute {t : State} {i : Instr} (hfetch : Fetches s)
      (hdecode : decode s.cfg (s.mem.read s.pc.toNat) = .ok i) (hrun : exec i (Fetched s) = .next t) :
      StepsTo s t (reportAfter t)

variable {s t : State}

/-! ### The step that fetches, and the one that cannot -/

theorem beforeExecute_of_decode {i : Instr} (hfetch : Fetches s)
    (hdecode : decode s.cfg (s.mem.read s.pc.toNat) = .ok i) : beforeExecute s = .run i (Fetched s) := by
  rcases beforeExecute_of_fetches hfetch with ⟨opc, hbad, -⟩ | ⟨j, hok, hbefore⟩
  · rw [hdecode] at hbad; contradiction
  · obtain rfl := Except.ok.inj (hdecode.symm.trans hok)
    exact hbefore

theorem beforeExecute_of_reject {e : DecodeError} (hfetch : Fetches s)
    (hdecode : decode s.cfg (s.mem.read s.pc.toNat) = .error e) :
    beforeExecute s = .ofError (.invalidOpcode e.1) (Fetched s) := by
  rcases beforeExecute_of_fetches hfetch with ⟨opc, hbad, hbefore⟩ | ⟨j, hok, -⟩
  · obtain rfl := Except.error.inj (hdecode.symm.trans hbad)
    exact hbefore
  · rw [hdecode] at hok; contradiction

/-- No breakpoint can stand beyond memory (60_exceptions.md R256). -/
theorem hitTable_none_of_outside {pc : Word} (bs : List Breakpoint) (hpc : 1024 ≤ pc.toNat) : hitTable pc bs = none :=
  hitTable_none_iff.mpr fun b _ ⟨_, haddr⟩ => absurd b.address.isLt (by omega)

theorem beforeExecute_of_outside (hlive : ¬ s.runState.Terminal) (hpc : 1024 ≤ s.pc.toNat) :
    beforeExecute s = .ofError (.pcOutOfBounds s.pc) s := by
  rw [beforeExecute_live hlive, checkBreakpoint, hitTable_none_of_outside _ hpc]
  exact if_pos hpc

/-- Only a step that fetches goes on to an execute phase. -/
theorem fetches_of_run {i : Instr} {u : State} (h : beforeExecute s = .run i u) : Fetches s := by
  rcases beforeExecute_cases s with ⟨-, hbefore⟩ | ⟨-, hbefore⟩ | ⟨-, bs, -, hbefore⟩ | ⟨-, -, -, hbefore⟩ |
    ⟨hlive, hmiss, hpc, -⟩ | ⟨hlive, hmiss, hpc, -⟩
  · rw [hbefore] at h; contradiction
  · rw [hbefore] at h; contradiction
  · rw [hbefore] at h; contradiction
  · rw [hbefore] at h; contradiction
  · exact ⟨hlive, hitTable_none_iff.mp hmiss, hpc⟩
  · exact ⟨hlive, hitTable_none_iff.mp hmiss, hpc⟩

/-! ### The next state and the report -/

/-- The execute phase of a step decides its next state and its report. -/
theorem step_of_run {i : Instr} {u : State} (h : beforeExecute s = .run i u) (hrun : exec i u = .next t) :
    step s = .next t ∧ stepReport s = reportAfter t := by
  constructor
  · rw [step, h]
    exact hrun
  · rw [stepReport, h]
    simp only [hrun]

/-- Every step from every state ends in a next state, in one of the ways listed. -/
theorem step_total (s : State) : ∃ t r, step s = .next t ∧ stepReport s = r ∧ StepsTo s t r := by
  rcases beforeExecute_cases s with ⟨h, hbefore⟩ | ⟨h, hbefore⟩ | ⟨hlive, bs, hhit, hbefore⟩ |
    ⟨hlive, -, hpc, hbefore⟩ | ⟨hlive, hmiss, hpc, opc, hdecode, hbefore⟩ | ⟨hlive, hmiss, hpc, i, hdecode, hbefore⟩
  · obtain ⟨hstep, hreport⟩ := step_of_done hbefore
    exact ⟨_, _, hstep, hreport, .halted h⟩
  · obtain ⟨hstep, hreport⟩ := step_of_done hbefore
    exact ⟨_, _, hstep, hreport, .error h⟩
  · obtain ⟨hstep, hreport⟩ := step_of_done hbefore
    exact ⟨_, _, hstep, hreport, .breakpoint hlive hhit⟩
  · obtain ⟨hstep, hreport⟩ := step_of_done hbefore
    exact ⟨_, _, hstep, hreport, .pcOutOfBounds hlive hpc⟩
  · obtain ⟨hstep, hreport⟩ := step_of_done hbefore
    exact ⟨_, _, hstep, hreport, .invalidOpcode ⟨hlive, hitTable_none_iff.mp hmiss, hpc⟩ hdecode⟩
  · obtain ⟨t, hrun⟩ := exec_total i (s.loadFetched (s.mem.read s.pc.toNat))
    obtain ⟨hstep, hreport⟩ := step_of_run hbefore hrun
    exact ⟨t, _, hstep, hreport, .execute ⟨hlive, hitTable_none_iff.mp hmiss, hpc⟩ hdecode hrun⟩

/-- What a step does: its next state and its report. -/
theorem stepsTo_of_step (h : step s = .next t) : ∃ r, stepReport s = r ∧ StepsTo s t r := by
  obtain ⟨u, r, hstep, hreport, hto⟩ := step_total s
  obtain rfl := Host.Outcome.next.inj (hstep.symm.trans h)
  exact ⟨r, hreport, hto⟩

/-- A step that fetches a word that decodes is its instruction's execute phase. -/
theorem step_of_decode {i : Instr} (hfetch : Fetches s) (hdecode : decode s.cfg (s.mem.read s.pc.toNat) = .ok i)
    (hrun : exec i (Fetched s) = .next t) : step s = .next t ∧ stepReport s = reportAfter t :=
  step_of_run (beforeExecute_of_decode hfetch hdecode) hrun

/-- Each of the ways listed is what a step does where its conditions hold. -/
theorem step_of_stepsTo {r : StepReport} (h : StepsTo s t r) : step s = .next t ∧ stepReport s = r := by
  cases h with
  | halted h => exact step_of_done (beforeExecute_halted h)
  | error h => exact step_of_done (beforeExecute_error h)
  | breakpoint hlive hhit => exact step_of_done (beforeExecute_of_hit hlive hhit)
  | pcOutOfBounds hlive hpc => exact step_of_done (beforeExecute_of_outside hlive hpc)
  | invalidOpcode hfetch hdecode => exact step_of_done (beforeExecute_of_reject hfetch hdecode)
  | execute hfetch hdecode hrun => exact step_of_decode hfetch hdecode hrun

end Sys2Proof.Machine
end

section
/-! PROOF. The invariant (10_state.md R36, R38, R43, R44, R46; 60_exceptions.md R230): each named update of the state
keeps it, so each instruction and each step does. -/

namespace Sys2Proof.Machine

/-- What a slot is but for its hit count: address, enable bit and condition text. -/
def Breakpoint.setting (b : Breakpoint) : Fin 1024 × Bool × String := (b.address, b.enabled, b.condition)

variable {s t : State}

/-! ### The breakpoint table -/

/-- A hit changes no slot but for its hit count. -/
theorem map_setting_of_hit {pc : Word} {bs bs' : List Breakpoint} (h : hitTable pc bs = some bs') :
    bs'.map Breakpoint.setting = bs.map Breakpoint.setting := by
  obtain ⟨l, b, r, rfl, -, -, rfl⟩ := hitTable_some h
  simp [Breakpoint.setting]

/-- A table's form depends on the slots' addresses and enable bits alone. -/
theorem tableWf_of_map_setting {bs bs' : List Breakpoint} (h : bs'.map Breakpoint.setting = bs.map Breakpoint.setting)
    (hwf : TableWf bs) : TableWf bs' := by
  obtain ⟨hlen, huniq⟩ := hwf
  refine ⟨?_, ?_⟩
  · rw [← List.length_map (f := Breakpoint.setting), h, List.length_map]
    exact hlen
  · have hpairs (cs : List Breakpoint) := List.pairwise_map (f := Breakpoint.setting) (l := cs)
      (R := fun p q => ¬(p.2.1 = true ∧ q.2.1 = true ∧ p.1 = q.1))
    exact (hpairs bs').mp (h ▸ (hpairs bs).mpr huniq)

/-! ### The parts of the invariant that an instruction needs -/

theorem State.Inv.cfg_wf (hs : s.Inv) : s.cfg.wf := hs.1

theorem State.Inv.mem_wf (hs : s.Inv) : s.mem.wf = true := hs.2.1

theorem State.Inv.sp_le (hs : s.Inv) : s.sp.toNat ≤ s.cfg.stackTop.toNat := hs.2.2.1

theorem State.Inv.stackTop_le (hs : s.Inv) : s.cfg.stackTop.toNat ≤ 1023 := hs.1.2.1

theorem State.Inv.table_wf (hs : s.Inv) : TableWf s.breakpoints := hs.2.2.2.2.2.2

/-! ### Each update keeps the invariant -/

/-- In a state of the invariant that is not terminal there is no recorded error and no exit code. -/
theorem State.Inv.of_live (hs : s.Inv) (hlive : ¬ s.runState.Terminal) : s.lastError = none ∧ s.exitCode = 0 := by
  obtain ⟨-, -, -, -, herr, hhalt, -⟩ := hs
  obtain ⟨hnothalted, hnoterror⟩ := not_or.mp hlive
  exact ⟨by simpa using mt herr.mpr hnoterror, by simpa using mt hhalt.mpr hnothalted⟩

theorem State.Inv.setPc (hs : s.Inv) (v : Word) : (s.setPc v).Inv := hs

theorem State.Inv.setX (hs : s.Inv) (v : Word) : (s.setX v).Inv := hs

theorem State.Inv.jumpTo (hs : s.Inv) (target : BitVec 10) : (s.jumpTo target).Inv := hs

theorem State.Inv.fetched (hs : s.Inv) : (Fetched s).Inv := hs

theorem State.Inv.setA_setFlags (hs : s.Inv) (a : Word) {f : Flags} (hf : f.c = f.v) :
    ((s.setA a).setFlags f).Inv := by
  obtain ⟨hcfg, hmem, hsp, -, hrest⟩ := hs
  exact ⟨hcfg, hmem, hsp, hf, hrest⟩

theorem State.Inv.setMem (hs : s.Inv) {m : Memory} (hm : m.wf = true) : (s.setMem m).Inv := by
  obtain ⟨hcfg, -, hrest⟩ := hs
  exact ⟨hcfg, hm, hrest⟩

theorem State.Inv.setSp (hs : s.Inv) {v : Word} (hv : v.toNat ≤ s.cfg.stackTop.toNat) : (s.setSp v).Inv := by
  obtain ⟨hcfg, hmem, -, hrest⟩ := hs
  exact ⟨hcfg, hmem, hv, hrest⟩

theorem State.Inv.setBreakpoints (hs : s.Inv) {bs : List Breakpoint} (hbs : TableWf bs) :
    (s.setBreakpoints bs).Inv := by
  obtain ⟨hcfg, hmem, hsp, hflags, herr, hhalt, -⟩ := hs
  exact ⟨hcfg, hmem, hsp, hflags, herr, hhalt, hbs⟩

/-- A state that is not terminal may take another run state that is not. -/
theorem State.Inv.setRunState (hs : s.Inv) (hlive : ¬ s.runState.Terminal) {r : RunState} (hr : ¬ r.Terminal) :
    (s.setRunState r).Inv := by
  obtain ⟨hnone, hzero⟩ := hs.of_live hlive
  obtain ⟨hcfg, hmem, hsp, hflags, -, -, htable⟩ := hs
  exact ⟨hcfg, hmem, hsp, hflags, by simp_all, by simp_all, htable⟩

/-- Recording an error in a state that is not terminal: Error and the record come together. -/
theorem State.Inv.recordError (hs : s.Inv) (hlive : ¬ s.runState.Terminal) (e : ErrorCause) :
    (s.recordError e).Inv := by
  obtain ⟨-, hzero⟩ := hs.of_live hlive
  obtain ⟨hcfg, hmem, hsp, hflags, -, -, htable⟩ := hs
  exact ⟨hcfg, hmem, hsp, hflags, by simp, by simp [hzero], htable⟩

/-- Halting with a code that is not 0: Halted and the code come together. -/
theorem State.Inv.halt (hs : s.Inv) (hlive : ¬ s.runState.Terminal) {code : BitVec 10} (hcode : code ≠ 0) :
    (s.halt code).Inv := by
  obtain ⟨hnone, -⟩ := hs.of_live hlive
  obtain ⟨hcfg, hmem, hsp, hflags, -, -, htable⟩ := hs
  exact ⟨hcfg, hmem, hsp, hflags, by simp [hnone], by simpa using hcode, htable⟩

/-! ### Instructions and steps -/

/-- A push takes one slot, so `SP` only goes down. -/
theorem toNat_sub_one {v : Word} (h : v ≠ 0) : (v - 1).toNat + 1 = v.toNat := by
  have hpos : v.toNat ≠ 0 := fun h0 => h (BitVec.eq_of_toNat_eq h0)
  bv_omega

/-- A pop below a bound does not wrap. -/
theorem toNat_add_one {v w : Word} (h : v < w) : (v + 1).toNat = v.toNat + 1 := by
  bv_omega

/-- The writes of an instruction keep the invariant; a halt needs its code, which every decoded halt has. -/
theorem Writes.inv {i : Instr} (h : Writes s i t) (hi : i.haltCodeNonzero = true) (hlive : ¬ s.runState.Terminal)
    (hs : s.Inv) : t.Inv := by
  cases h with
  | value hi a f hf hcmp => exact hs.setA_setFlags a hf
  | store hk => exact hs.setMem (Memory.wf_write hs.mem_wf (storesTo_lt hk))
  | transfer hi pc => exact hs.setPc pc
  | call target hroom hlt =>
    have hdown : (s.sp - 1).toNat ≤ s.cfg.stackTop.toNat := by
      have := toNat_sub_one hroom
      have := hs.sp_le
      omega
    exact ((hs.setMem (Memory.wf_write hs.mem_wf hlt)).setSp hdown).jumpTo target
  | ret hpending hlt =>
    have hup : (s.sp + 1).toNat ≤ s.cfg.stackTop.toNat := by
      rw [toNat_add_one hpending]
      exact hpending
    exact (hs.setSp hup).setPc _
  | halt code => exact hs.halt hlive (bne_iff_ne.mp hi)

theorem exec_inv {i : Instr} (h : exec i s = .next t) (hi : i.haltCodeNonzero = true) (hlive : ¬ s.runState.Terminal)
    (hs : s.Inv) : t.Inv := by
  cases ends_of_exec h with
  | done h => exact h.inv hi hlive hs
  | failed h => exact hs.recordError hlive _

theorem step_inv (h : step s = .next t) (hs : s.Inv) : t.Inv := by
  obtain ⟨r, -, hto⟩ := stepsTo_of_step h
  cases hto with
  | halted | error => exact hs
  | breakpoint hlive hhit =>
    have htable := tableWf_of_map_setting (map_setting_of_hit hhit) hs.table_wf
    exact (hs.setBreakpoints htable).setRunState hlive (by decide)
  | pcOutOfBounds hlive hpc => exact hs.recordError hlive _
  | invalidOpcode hfetch hdecode => exact hs.fetched.recordError hfetch.1 _
  | execute hfetch hdecode hrun =>
    obtain ⟨-, hcode⟩ := Instr.wf_iff.mp (wf_of_decode hdecode)
    exact exec_inv hrun hcode hfetch.1 hs.fetched

theorem State.init_inv {c : Config} (hc : c.wf) : (State.init c).Inv :=
  ⟨hc, rfl, le_rfl, rfl, by simp [State.init], by simp [State.init, resetExitCode], by simp [State.init, TableWf]⟩

theorem defaultConfig_wf : defaultConfig.wf := by decide

/-! ### The obligations -/

/-- Settles O53: the fetch-phase writes, the breakpoint check, an error and an instruction's writes each keep it. -/
theorem stepKeepsTheInvariant : Obligations.StepKeepsTheInvariant :=
  fun _ _ hs h => step_inv h hs

/-- Settles O52: a state fresh from `init` meets the invariant, and the default parameters are well formed. -/
theorem resetMeetsTheInvariant : Obligations.ResetMeetsTheInvariant :=
  State.init_inv defaultConfig_wf

end Sys2Proof.Machine
end

section
/-! PROOF. The host's actions (60_exceptions.md R255 to R263; 70_reset_and_hazards.md R270, R275): the breakpoint unit,
the loader, reset and run, what each does and that each keeps the invariant. -/

namespace Sys2Proof.Machine

variable {s t : State}

/-! ### The breakpoint unit: add -/

/-- A slot replaced by one that meets no other slot leaves a well-formed table. -/
theorem tableWf_replace {l r : List Breakpoint} {old b : Breakpoint} (hwf : TableWf (l ++ old :: r))
    (hb : ∀ c ∈ l ++ old :: r, ¬(c.enabled = true ∧ c.address = b.address)) : TableWf (l ++ b :: r) := by
  obtain ⟨hlen, huniq⟩ := hwf
  obtain ⟨hl, hr, hlr⟩ := List.pairwise_append.mp huniq
  obtain ⟨-, hr⟩ := List.pairwise_cons.mp hr
  refine ⟨by simpa using hlen, List.pairwise_append.mpr ⟨hl, List.pairwise_cons.mpr ⟨?_, hr⟩, ?_⟩⟩
  · rintro c hc ⟨-, hen, haddr⟩
    exact hb c (by simp [hc]) ⟨hen, haddr.symm⟩
  · intro c hc d hd
    rcases List.mem_cons.mp hd with rfl | hd
    · rintro ⟨hen, -, haddr⟩
      exact hb c (by simp [hc]) ⟨hen, haddr⟩
    · exact hlr c hc d (List.mem_cons_of_mem _ hd)

/-- A slot appended that meets no other slot leaves a well-formed table. -/
theorem tableWf_append {bs : List Breakpoint} {b : Breakpoint} (hroom : bs.length < bpSlots) (hwf : TableWf bs)
    (hb : ∀ c ∈ bs, ¬(c.enabled = true ∧ c.address = b.address)) : TableWf (bs ++ [b]) := by
  obtain ⟨-, huniq⟩ := hwf
  refine ⟨?_, List.pairwise_append.mpr ⟨huniq, List.pairwise_singleton .., ?_⟩⟩
  · rw [List.length_append]
    exact hroom
  · rintro c hc d hd ⟨hen, -, haddr⟩
    obtain rfl := List.mem_singleton.mp hd
    exact hb c hc ⟨hen, haddr⟩

theorem reuseSlot_some {b : Breakpoint} {bs bs' : List Breakpoint} (h : reuseSlot b bs = some bs') :
    ∃ l old r, bs = l ++ old :: r ∧ bs' = l ++ b :: r := by
  induction bs generalizing bs' with
  | nil => simp [reuseSlot] at h
  | cons c rest ih =>
    rw [reuseSlot] at h
    split at h
    · obtain ⟨rest', hrest, rfl⟩ := Option.map_eq_some_iff.mp h
      obtain ⟨l, old, r, rfl, rfl⟩ := ih hrest
      exact ⟨c :: l, old, r, rfl, rfl⟩
    · obtain rfl := Option.some.inj h
      exact ⟨[], c, rest, rfl, rfl⟩

/-- No slot is reused exactly when none is disabled. -/
theorem reuseSlot_none_iff {b : Breakpoint} {bs : List Breakpoint} :
    reuseSlot b bs = none ↔ ∀ c ∈ bs, c.enabled = true := by
  induction bs with
  | nil => simp [reuseSlot]
  | cons c rest ih => cases hc : c.enabled <;> simp [reuseSlot, hc, ih]

/-- The slot reused is the lowest disabled one. -/
theorem reuseSlot_of_lowest {b old : Breakpoint} {bs : List Breakpoint} {k : Nat} (hk : bs[k]? = some old)
    (hold : old.enabled = false) (hlow : ∀ (j : Nat) (c : Breakpoint), j < k → bs[j]? = some c → c.enabled = true) :
    reuseSlot b bs = some (bs.set k b) := by
  induction bs generalizing k with
  | nil => simp at hk
  | cons c rest ih =>
    cases k with
    | zero =>
      obtain rfl : c = old := by simpa using hk
      rw [reuseSlot, if_neg (by simp [hold]), List.set_cons_zero]
    | succ k =>
      have hc : c.enabled = true := hlow 0 c (Nat.zero_lt_succ k) rfl
      have hrest : reuseSlot b rest = some (rest.set k b) :=
        ih (by simpa using hk) fun j d hj hd => hlow (j + 1) d (Nat.succ_lt_succ hj) (by simpa using hd)
      rw [reuseSlot, if_pos hc, hrest, Option.map_some, List.set_cons_succ]

/-- An enabled slot at `a` is what `add` and `remove` look for. -/
theorem any_enabledAt_iff {a : Nat} {bs : List Breakpoint} :
    bs.any (Breakpoint.enabledAt a) = true ↔ ∃ b ∈ bs, b.enabled = true ∧ b.address.val = a := by
  simp only [List.any_eq_true, Breakpoint.enabledAt_iff]

theorem any_enabledAt_fin_iff {a : Fin 1024} {bs : List Breakpoint} :
    bs.any (Breakpoint.enabledAt a.val) = true ↔ ∃ b ∈ bs, b.enabled = true ∧ b.address = a := by
  simp only [any_enabledAt_iff, Fin.ext_iff]

theorem State.addBreakpoint_of_valid (s : State) (a : Fin 1024) :
    s.addBreakpoint a.val = ((addSlot a s.breakpoints).1, s.setBreakpoints (addSlot a s.breakpoints).2) := by
  have ha : 0 ≤ (a.val : Int) ∧ (a.val : Int) < 1024 := by omega
  rw [State.addBreakpoint, dif_pos ha]
  rfl

theorem addSlot_of_duplicate {a : Fin 1024} {bs : List Breakpoint} (h : ∃ b ∈ bs, b.enabled = true ∧ b.address = a) :
    addSlot a bs = (.rejectedDuplicate, bs) := by
  rw [addSlot, if_pos (any_enabledAt_fin_iff.mpr h)]

section

variable {a : Fin 1024} {bs : List Breakpoint} (hnew : ∀ b ∈ bs, ¬(b.enabled = true ∧ b.address = a))

include hnew

theorem not_any_enabledAt : ¬ bs.any (Breakpoint.enabledAt a.val) = true := fun hany => by
  obtain ⟨b, hb, hat⟩ := any_enabledAt_fin_iff.mp hany
  exact hnew b hb hat

theorem addSlot_of_reuse {bs' : List Breakpoint} (h : reuseSlot (freshSlot a) bs = some bs') :
    addSlot a bs = (.added, bs') := by
  rw [addSlot, if_neg (not_any_enabledAt hnew), h]

theorem addSlot_of_room (h : reuseSlot (freshSlot a) bs = none) (hroom : bs.length < bpSlots) :
    addSlot a bs = (.added, bs ++ [freshSlot a]) := by
  rw [addSlot, if_neg (not_any_enabledAt hnew), h]
  exact if_neg (Nat.not_le.mpr hroom)

theorem addSlot_of_full (h : reuseSlot (freshSlot a) bs = none) (hfull : bpSlots ≤ bs.length) :
    addSlot a bs = (.rejectedResourceFull, bs) := by
  rw [addSlot, if_neg (not_any_enabledAt hnew), h]
  exact if_pos hfull

end

/-- A table stays well formed under `add`: the fresh slot's address is no enabled slot's. -/
theorem tableWf_addSlot {a : Fin 1024} {bs : List Breakpoint} (hwf : TableWf bs) : TableWf (addSlot a bs).2 := by
  by_cases hdup : ∃ b ∈ bs, b.enabled = true ∧ b.address = a
  · rw [addSlot_of_duplicate hdup]
    exact hwf
  · have hnew : ∀ b ∈ bs, ¬(b.enabled = true ∧ b.address = a) := fun b hb hat => hdup ⟨b, hb, hat⟩
    cases hreuse : reuseSlot (freshSlot a) bs with
    | some bs' =>
      obtain ⟨l, old, r, rfl, rfl⟩ := reuseSlot_some hreuse
      rw [addSlot_of_reuse hnew hreuse]
      exact tableWf_replace hwf hnew
    | none =>
      by_cases hfull : bpSlots ≤ bs.length
      · rw [addSlot_of_full hnew hreuse hfull]
        exact hwf
      · rw [addSlot_of_room hnew hreuse (Nat.not_le.mp hfull)]
        exact tableWf_append (Nat.not_le.mp hfull) hwf hnew

/-! ### The breakpoint unit: remove -/

/-- Disabling only takes enabled slots away. -/
theorem tableWf_disableAt {a : Nat} {bs : List Breakpoint} (hwf : TableWf bs) : TableWf (disableAt a bs) := by
  obtain ⟨hlen, huniq⟩ := hwf
  have hkept : ∀ b : Breakpoint, (if b.enabledAt a then { b with enabled := false } else b).address = b.address := by
    intro b; split <;> rfl
  have hless : ∀ b : Breakpoint,
      (if b.enabledAt a then { b with enabled := false } else b).enabled = true → b.enabled = true := by
    intro b; split <;> simp
  refine ⟨by simpa [disableAt] using hlen, List.pairwise_map.mpr (huniq.imp fun hdiff ⟨hen, hen', haddr⟩ => ?_)⟩
  exact hdiff ⟨hless _ hen, hless _ hen', by simpa only [hkept] using haddr⟩

/-- After `disableAt a` no enabled slot stands at `a`. -/
theorem not_enabledAt_of_mem_disableAt {a : Nat} {bs : List Breakpoint} {b : Breakpoint} (hb : b ∈ disableAt a bs) :
    ¬ b.enabledAt a = true := by
  obtain ⟨c, -, rfl⟩ := List.mem_map.mp hb
  split
  · simp [Breakpoint.enabledAt]
  · assumption

theorem disableAt_eq_self {a : Nat} {bs : List Breakpoint} (h : ∀ b ∈ bs, ¬ b.enabledAt a = true) :
    disableAt a bs = bs :=
  (List.map_congr_left fun b hb => if_neg (h b hb)).trans (List.map_id' bs)

/-- In a table with at most one enabled slot per address, disabling marks exactly the slot that stands there. -/
theorem disableAt_of_enabledAt {a k : Nat} {bs : List Breakpoint} {b : Breakpoint}
    (huniq : bs.Pairwise fun c c' => ¬(c.enabled = true ∧ c'.enabled = true ∧ c.address = c'.address))
    (hk : bs[k]? = some b) (hb : b.enabledAt a = true) :
    disableAt a bs = bs.set k { b with enabled := false } := by
  obtain ⟨hen, haddr⟩ := Breakpoint.enabledAt_iff.mp hb
  induction bs generalizing k with
  | nil => simp at hk
  | cons c rest ih =>
    obtain ⟨hc, hrest⟩ := List.pairwise_cons.mp huniq
    cases k with
    | zero =>
      obtain rfl : c = b := by simpa using hk
      have hothers : disableAt a rest = rest := disableAt_eq_self fun d hd hat => by
        obtain ⟨hen', haddr'⟩ := Breakpoint.enabledAt_iff.mp hat
        exact hc d hd ⟨hen, hen', Fin.ext (haddr.trans haddr'.symm)⟩
      rw [disableAt, List.map_cons, if_pos hb, List.set_cons_zero]
      exact congrArg _ hothers
    | succ k =>
      have hk' : rest[k]? = some b := by simpa using hk
      have hmiss : ¬ c.enabledAt a = true := fun hat => by
        obtain ⟨hen', haddr'⟩ := Breakpoint.enabledAt_iff.mp hat
        exact hc b (List.mem_of_getElem? hk') ⟨hen', hen, Fin.ext (haddr'.trans haddr.symm)⟩
      rw [disableAt, List.map_cons, if_neg hmiss, List.set_cons_succ]
      exact congrArg _ (ih hrest hk')

/-- `remove` of an address where an enabled slot stands. -/
theorem State.removeBreakpoint_of_mem {b : Breakpoint} (hb : b ∈ s.breakpoints) (hen : b.enabled = true) :
    s.removeBreakpoint b.address.val = (.removed, s.setBreakpoints (disableAt b.address.val s.breakpoints)) := by
  have hany : s.breakpoints.any (Breakpoint.enabledAt b.address.val) = true := any_enabledAt_iff.mpr ⟨b, hb, hen, rfl⟩
  exact if_pos ⟨by omega, hany⟩

/-! ### The loader -/

/-- The words before `base` are not the loader's. -/
theorem read_loadWords_of_lt {ws : List Word} {base b : Nat} {m : Memory} (hb : b < base) :
    (loadWords ws base m).read b = m.read b := by
  induction ws generalizing base m with
  | nil => rfl
  | cons w ws ih => rw [loadWords, ih (by omega), Memory.read_write_other (by omega)]

/-- The words after the program are not the loader's. -/
theorem read_loadWords_of_ge {ws : List Word} {base b : Nat} {m : Memory} (hb : base + ws.length ≤ b) :
    (loadWords ws base m).read b = m.read b := by
  induction ws generalizing base m with
  | nil => rfl
  | cons w ws ih =>
    rw [List.length_cons] at hb
    rw [loadWords, ih (by omega), Memory.read_write_other (by omega)]

/-- Word `k` of the program goes to `base + k`: later words leave it alone. -/
theorem read_loadWords {ws : List Word} {base k : Nat} {w : Word} {m : Memory} (hm : m.wf = true)
    (hfit : base + ws.length ≤ memWords) (hk : ws[k]? = some w) : (loadWords ws base m).read (base + k) = w := by
  induction ws generalizing base k m with
  | nil => simp at hk
  | cons v ws ih =>
    rw [List.length_cons] at hfit
    cases k with
    | zero =>
      obtain rfl : v = w := by simpa using hk
      rw [loadWords, read_loadWords_of_lt (by omega), Nat.add_zero, Memory.read_write_same hm]
    | succ k =>
      have hm' : (m.write base v).wf = true := Memory.wf_write hm (by omega)
      have hrest := ih (base := base + 1) hm' (by omega) (by simpa using hk)
      rw [loadWords, ← hrest, Nat.add_right_comm, Nat.add_assoc]

theorem State.loadProgram_of_fits {ws : List Word} (h : ws.length ≤ memWords) :
    s.loadProgram ws = some (s.setMem (loadWords ws 0 s.mem)) := if_pos h

theorem State.loadProgram_of_too_long {ws : List Word} (h : memWords < ws.length) : s.loadProgram ws = none :=
  if_neg (Nat.not_le.mpr h)

end Sys2Proof.Machine
end

section
/-! PROOF. The statements about one step and about several (40_execution_cycle.md R100 to R110; 60_exceptions.md R227 to
R233, R262): each follows from what a step can do. -/

namespace Sys2Proof.Machine

/-- What no execute phase writes. -/
structure ExecKeeps (s t : State) : Prop where
  x : t.x = s.x
  ir : t.ir = s.ir
  cycleCount : t.cycleCount = s.cycleCount
  debugEnabled : t.debugEnabled = s.debugEnabled
  traceEnabled : t.traceEnabled = s.traceEnabled
  breakpoints : t.breakpoints = s.breakpoints
  cfg : t.cfg = s.cfg

variable {s t : State} {i : Instr} {r : StepReport}

/-! ### What an instruction leaves -/

theorem Writes.execKeeps (h : Writes s i t) : ExecKeeps s t := by
  cases h <;> exact ⟨rfl, rfl, rfl, rfl, rfl, rfl, rfl⟩

theorem Ends.execKeeps (h : Ends s i t) : ExecKeeps s t := by
  cases h with
  | done h => exact h.execKeeps
  | failed h => exact ⟨rfl, rfl, rfl, rfl, rfl, rfl, rfl⟩

/-- The halt variant of RTS halts; the writes of every other instruction leave the run state and the error record
alone. -/
theorem Writes.halts_or_keeps (h : Writes s i t) :
    (∃ code, i = .rtsHalt code ∧ t = s.halt code) ∨
      ((∀ code, i ≠ .rtsHalt code) ∧ t.runState = s.runState ∧ t.lastError = s.lastError) := by
  cases h with
  | value hi a f hf hcmp =>
    refine .inr ⟨?_, rfl, rfl⟩
    rintro code rfl
    simp [valueInstrs] at hi
  | transfer hi pc =>
    refine .inr ⟨?_, rfl, rfl⟩
    rintro code rfl
    simp [Instr.opcode] at hi
  | store | call | ret => exact .inr ⟨nofun, rfl, rfl⟩
  | halt code => exact .inl ⟨code, rfl, rfl⟩

/-- The halt variant of RTS raises no error. -/
theorem Raises.ne_rtsHalt {e : ErrorCause} (h : Raises s i e) (code : BitVec 10) : i ≠ .rtsHalt code := by
  rintro rfl
  cases h with
  | operand hi h => simp [valueInstrs] at hi

/-! ### The report -/

theorem reportAfter_of_live (h : ¬ t.runState.Terminal) : reportAfter t = .ok := by
  cases hstate : t.runState with
  | halted => exact absurd (.inl hstate) h
  | error => exact absurd (.inr hstate) h
  | stopped | running | breakpoint => rw [reportAfter, hstate]

theorem reportAfter_halted (h : t.runState = .halted) : reportAfter t = .halt t.exitCode := by
  rw [reportAfter, h]

/-- The report against the run state that the step leaves. -/
theorem StepsTo.agrees (h : StepsTo s t r) :
    (r = .ok ∧ ¬ s.runState.Terminal ∧ t.runState = s.runState) ∨
    (r = .breakpoint ∧ ¬ s.runState.Terminal ∧ t.runState = .breakpoint) ∨
    (r = .halt t.exitCode ∧ t.runState = .halted) ∨
    (r = .error t.lastError ∧ t.runState = .error) := by
  cases h with
  | halted h => exact .inr (.inr (.inl ⟨rfl, h⟩))
  | error h => exact .inr (.inr (.inr ⟨rfl, h⟩))
  | breakpoint hlive hhit => exact .inr (.inl ⟨rfl, hlive, rfl⟩)
  | pcOutOfBounds hlive hpc => exact .inr (.inr (.inr ⟨rfl, rfl⟩))
  | invalidOpcode hfetch hdecode => exact .inr (.inr (.inr ⟨rfl, rfl⟩))
  | execute hfetch hdecode hrun =>
    cases ends_of_exec hrun with
    | failed h => exact .inr (.inr (.inr ⟨rfl, rfl⟩))
    | done h =>
      rcases h.halts_or_keeps with ⟨code, rfl, rfl⟩ | ⟨-, hkeep, -⟩
      · exact .inr (.inr (.inl ⟨rfl, rfl⟩))
      · exact .inl ⟨reportAfter_of_live (hkeep ▸ hfetch.1), hfetch.1, hkeep⟩

/-! ### The cycle counter -/

theorem not_fetches_of_hit {bs : List Breakpoint} (hhit : hitTable s.pc s.breakpoints = some bs) : ¬ Fetches s := by
  rintro ⟨-, hmiss, -⟩
  rw [hitTable_none_iff.mpr hmiss] at hhit
  contradiction

/-- A step either fetches and counts, or leaves the counter, `IR`, `PC` and memory alone. -/
theorem StepsTo.cycleCount (h : StepsTo s t r) :
    (Fetches s ∧ t.cycleCount = s.cycleCount + 1) ∨
      (¬ Fetches s ∧ t.cycleCount = s.cycleCount ∧ t.ir = s.ir ∧ t.pc = s.pc ∧ t.mem = s.mem) := by
  cases h with
  | halted h => exact .inr ⟨fun hf => hf.1 (.inl h), rfl, rfl, rfl, rfl⟩
  | error h => exact .inr ⟨fun hf => hf.1 (.inr h), rfl, rfl, rfl, rfl⟩
  | breakpoint hlive hhit => exact .inr ⟨not_fetches_of_hit hhit, rfl, rfl, rfl, rfl⟩
  | pcOutOfBounds hlive hpc => exact .inr ⟨fun ⟨_, _, hlt⟩ => Nat.not_lt.mpr hpc hlt, rfl, rfl, rfl, rfl⟩
  | invalidOpcode hfetch hdecode => exact .inl ⟨hfetch, rfl⟩
  | execute hfetch hdecode hrun => exact .inl ⟨hfetch, (ends_of_exec hrun).execKeeps.cycleCount⟩

/-! ### The trace line -/

theorem traceOf_of_decode (hfetch : Fetches s) (hdecode : decode s.cfg (s.mem.read s.pc.toNat) = .ok i) :
    traceOf s = if s.traceEnabled then
      some { pc := if Config.traceShowsAdvancedPc then s.pc + 1 else s.pc
             raw := s.mem.read s.pc.toNat, opcode := i.opcode
             operand := traceOperand i.opcode (s.mem.read s.pc.toNat), a := s.a, x := s.x, sp := s.sp }
    else none := by
  rw [traceOf, beforeExecute_of_decode hfetch hdecode]

/-- A step that does not fetch has no instruction to trace. -/
theorem traceOf_of_not_fetches (h : ¬ Fetches s) : traceOf s = none := by
  unfold traceOf
  cases hbefore : beforeExecute s with
  | done r t => rfl
  | run i t => exact absurd (fetches_of_run hbefore) h

/-! ### Several steps -/

theorem steps_of_fixed (h : step s = .next s) (n : Nat) : steps n s = .next s := by
  induction n with
  | zero => rfl
  | succ n ih => rw [steps, h]; exact ih

theorem steps_succ (h : step s = .next t) (n : Nat) : steps (n + 1) s = steps n t := by
  rw [steps, h]

/-! ### The enables -/

/-- `s` with the two enables replaced. -/
def State.withEnables (s : State) (debug trace : Bool) : State :=
  { s with debugEnabled := debug, traceEnabled := trace }

/-- The enables decide no phase of a step. -/
theorem StepsTo.withEnables (h : StepsTo s t r) (debug trace : Bool) :
    StepsTo (s.withEnables debug trace) (t.withEnables debug trace) r := by
  cases h with
  | halted h => exact .halted (s := s.withEnables debug trace) h
  | error h => exact .error (s := s.withEnables debug trace) h
  | breakpoint hlive hhit => exact .breakpoint (s := s.withEnables debug trace) hlive hhit
  | pcOutOfBounds hlive hpc => exact .pcOutOfBounds (s := s.withEnables debug trace) hlive hpc
  | invalidOpcode hfetch hdecode => exact .invalidOpcode (s := s.withEnables debug trace) hfetch hdecode
  | @execute t i hfetch hdecode hrun =>
    obtain ⟨u, f, f', hrun', hrunEnables, hflags⟩ := exec_endsAlike i (Fetched s)
      { (Fetched s).unread with debugEnabled := debug, traceEnabled := trace } fun _ => rfl
    obtain rfl := Host.Outcome.next.inj (hrun'.symm.trans hrun)
    obtain rfl : f' = f := by
      rcases hflags with h | ⟨h, h'⟩
      · exact h
      · exact h'.trans h.symm
    exact .execute (s := s.withEnables debug trace) hfetch hdecode hrunEnables

/-! ### The obligations -/

/-- Settles O10: a word that decodes goes on to the execute phase, and below 1024 the advance cannot wrap. -/
theorem stepRunsTheDecodedInstruction : Obligations.StepRunsTheDecodedInstruction := by
  intro s i hfetch hdecode
  obtain ⟨t, hrun⟩ := exec_total i (Fetched s)
  obtain ⟨hstep, -⟩ := step_of_decode hfetch hdecode hrun
  obtain ⟨-, -, hpc⟩ := hfetch
  exact ⟨hstep.trans hrun.symm, by bv_omega⟩

/-- Settles O14: no breakpoint can stand beyond memory, so the fetch check decides the step. -/
theorem fetchBeyondMemoryIsPcOutOfBounds : Obligations.FetchBeyondMemoryIsPcOutOfBounds :=
  fun _ hlive hpc => step_of_stepsTo (.pcOutOfBounds hlive hpc)

/-- Settles O15: such a word is one that the decoder rejects. -/
theorem unassignedOpcodeIsInvalidOpcode : Obligations.UnassignedOpcodeIsInvalidOpcode := by
  refine ⟨?_, defaultConfig_opcodeOf_total⟩
  rintro s _ hfetch rfl hnone
  exact (step_of_stepsTo (.invalidOpcode hfetch (decode_error_iff.mpr ⟨rfl, hnone⟩))).1

/-- Settles O16: each of the ways a step can go ends in a next state. -/
theorem everyStepAnswersANextState : Obligations.EveryStepAnswersANextState := by
  intro s
  obtain ⟨t, -, hstep, -, -⟩ := step_total s
  exact ⟨t, hstep⟩

/-- Settles O17: the report of each way a step can go agrees with the run state that it leaves. -/
theorem reportMatchesTheNextState : Obligations.ReportMatchesTheNextState := by
  intro s t hstep
  obtain ⟨_, rfl, hto⟩ := stepsTo_of_step hstep
  exact hto.agrees

/-- Settles O18: only the fetch check, the decode and an instruction's error path lead to Error. -/
theorem errorsArePrecise : Obligations.ErrorsArePrecise := by
  intro s t hlive hstep herror
  obtain ⟨r, -, hto⟩ := stepsTo_of_step hstep
  cases hto with
  | halted h => exact absurd (.inl h) hlive
  | error h => exact absurd (.inr h) hlive
  | breakpoint hlive hhit => contradiction
  | pcOutOfBounds hlive hpc => exact .inl ⟨hpc, rfl⟩
  | invalidOpcode hfetch hdecode => exact .inr ⟨hfetch, _, rfl⟩
  | execute hfetch hdecode hrun =>
    cases ends_of_exec hrun with
    | failed h => exact .inr ⟨hfetch, _, rfl⟩
    | done h =>
      rcases h.halts_or_keeps with ⟨code, -, rfl⟩ | ⟨-, hkeep, -⟩
      · contradiction
      · exact absurd (.inr (hkeep.symm.trans herror)) hlive

/-- Settles O19: a terminal state is a fixed point of the step, and `run` tests for it first. -/
theorem noReturnFromAnError : Obligations.NoReturnFromAnError := by
  refine ⟨fun n s herror => ?_, fun n s hhalted => ?_, fun _ => rfl⟩
  · obtain ⟨hstep, hreport⟩ := step_of_stepsTo (.error herror)
    exact ⟨steps_of_fixed hstep n, hreport, by rw [run, herror]⟩
  · obtain ⟨hstep, hreport⟩ := step_of_stepsTo (.halted hhalted)
    exact ⟨steps_of_fixed hstep n, hreport, by rw [run, hhalted]⟩

/-- Settles O20: by the writes and the errors of each instruction. -/
theorem onlyRtsHaltHalts : Obligations.OnlyRtsHaltHalts := by
  intro i s t hrun
  cases ends_of_exec hrun with
  | failed h => exact .inr ⟨h.ne_rtsHalt, .inr ⟨_, rfl⟩⟩
  | done h =>
    rcases h.halts_or_keeps with ⟨code, rfl, rfl⟩ | ⟨hne, hstate, herror⟩
    · exact .inl ⟨⟨code, rfl⟩, rfl⟩
    · exact .inr ⟨hne, .inl ⟨hstate, herror⟩⟩

/-- Settles O21: the fetch-phase writes count, and no execute phase writes the counter. -/
theorem cycleCountCountsFetches : Obligations.CycleCountCountsFetches := by
  intro s t hstep
  obtain ⟨r, -, hto⟩ := stepsTo_of_step hstep
  rcases hto.cycleCount with ⟨hfetch, hcount⟩ | ⟨hnofetch, hkeep⟩
  · exact ⟨fun _ => hcount, fun h => absurd hfetch h⟩
  · exact ⟨fun h => absurd h hnofetch, fun _ => hkeep⟩

/-- Settles O35: the word decodes to NOP, which answers the fetched state. -/
theorem nopDoesNothingBeyondTheFetch : Obligations.NopDoesNothingBeyondTheFetch := by
  refine ⟨fun _ => rfl, fun s hfetch hop => ?_⟩
  obtain ⟨hstep, hreport⟩ := step_of_decode hfetch (decode_of_opcodeOf hop) rfl
  exact ⟨hstep, hreport.trans (reportAfter_of_live hfetch.1)⟩

/-- Settles O40: the halt writes the code and the run state, and a halted state reports its code. -/
theorem rtsHaltHaltsWithItsCode : Obligations.RtsHaltHaltsWithItsCode := by
  refine ⟨fun _ _ _ => rfl, fun s code hfetch hdecode => ?_⟩
  obtain ⟨-, hreport⟩ := step_of_decode hfetch hdecode (t := (Fetched s).halt code) rfl
  exact hreport.trans (reportAfter_halted rfl)

/-- Settles O46: the phases before the execute phase write a hit count at most, and the execute phase none of these. -/
theorem stepsNeverWriteHostState : Obligations.StepsNeverWriteHostState := by
  intro s t hstep
  obtain ⟨r, -, hto⟩ := stepsTo_of_step hstep
  cases hto with
  | breakpoint hlive hhit => exact ⟨rfl, rfl, rfl, rfl, map_setting_of_hit hhit⟩
  | halted | error | pcOutOfBounds | invalidOpcode => exact ⟨rfl, rfl, rfl, rfl, rfl⟩
  | execute hfetch hdecode hrun =>
    have hkeep := (ends_of_exec hrun).execKeeps
    exact ⟨hkeep.x, hkeep.debugEnabled, hkeep.traceEnabled, hkeep.cfg, by rw [hkeep.breakpoints]⟩

/-- Settles O49: the step from the state with other enables goes the same way. -/
theorem enablesChangeNoStep : Obligations.EnablesChangeNoStep := by
  intro s debug trace
  obtain ⟨t, r, hstep, hreport, hto⟩ := step_total s
  obtain ⟨hstep', hreport'⟩ := step_of_stepsTo (hto.withEnables debug trace)
  exact ⟨t, hstep, hstep', hreport'.trans hreport.symm⟩

/-- Settles O59: by induction on the steps, each of which can reach Error only with an error to report. -/
theorem safeRunsStayOutOfError : Obligations.SafeRunsStayOutOfError := by
  intro n
  induction n with
  | zero => exact fun s hs _ => ⟨s, rfl, hs⟩
  | succ n ih =>
    rintro s hs ⟨hsafe, hrest⟩
    obtain ⟨t, r, hstep, hreport, hto⟩ := step_total s
    have ht : t.runState ≠ .error := by
      rcases hto.agrees with ⟨-, -, hkeep⟩ | ⟨-, -, hbp⟩ | ⟨-, hhalted⟩ | ⟨herror, -⟩
      · exact hkeep ▸ hs
      · exact hbp ▸ nofun
      · exact hhalted ▸ nofun
      · exact absurd (hreport.trans herror) (hsafe _)
    rw [steps_succ hstep]
    exact ih t ht (hrest t hstep)

/-- Settles O60: a line is made from the decoded instruction and the fetched state, or not at all. -/
theorem traceLineHoldsTheListedFields : Obligations.TraceLineHoldsTheListedFields := by
  refine ⟨fun s i hfetch hdecode => ?_, fun s hnofetch => ?_, fun s e hfetch hdecode => ?_⟩
  · rw [traceOf_of_decode hfetch hdecode]
    refine ⟨fun hoff => if_neg (by simp [hoff]), fun hon => ⟨_, if_pos hon, rfl, rfl, ?_, rfl, rfl, rfl, ?_, ?_⟩⟩
    · change (if _ then _ else _) = _ ∨ (if _ then _ else _) = _
      split
      · exact .inr rfl
      · exact .inl rfl
    · exact fun hop => if_pos hop
    · exact fun hnop hrts => if_neg (not_or.mpr ⟨hnop, hrts⟩)
  · exact traceOf_of_not_fetches hnofetch
  · rw [traceOf, beforeExecute_of_reject hfetch hdecode]
    rfl

end Sys2Proof.Machine
end

section
/-! PROOF. The statements about the host's actions: run and the invariant, the five outcomes of add, remove, the loader,
reset, and stepping at a breakpoint until the host removes it. -/

namespace Sys2Proof.Machine

/-- A breakpoint stops the machine in `s`: the step is not over before it looks, and slot `k` is the enabled slot at
`PC`. -/
structure StopsAt (s : State) (k : Nat) (b : Breakpoint) : Prop where
  live : ¬ s.runState.Terminal
  table : TableWf s.breakpoints
  slot : s.breakpoints[k]? = some b
  enabled : b.enabled = true
  atPc : b.address.val = s.pc.toNat

/-- `s` after `n` hits of slot `k`, which held `b`. -/
def State.afterHits (s : State) (k : Nat) (b : Breakpoint) (n : Nat) : State :=
  { s with breakpoints := s.breakpoints.set k { b with hitCount := b.hitCount + n }, runState := .breakpoint }

/-- How a run that reports `r` and ends in `t` ends (60_exceptions.md R255). -/
def RunEnds (r : RunReport) (t : State) : Prop :=
  (r = .exhausted ∧ t.runState = .stopped) ∨
  (r = .ended .breakpoint ∧ t.runState = .breakpoint) ∨
  (r = .ended (.halt t.exitCode) ∧ t.runState = .halted) ∨
  (r = .ended (.error t.lastError) ∧ t.runState = .error)

variable {s t : State} {n k : Nat} {b : Breakpoint}

/-! ### Run -/

theorem run_of_live (hlive : ¬ s.runState.Terminal) (n : Nat) : run n s = runLoop n (s.setRunState .running) := by
  cases hstate : s.runState with
  | halted => exact absurd (.inl hstate) hlive
  | error => exact absurd (.inr hstate) hlive
  | stopped | running | breakpoint => rw [run, hstate]

theorem runLoop_of_ok (hstep : step s = .next t) (hok : stepReport s = .ok) (n : Nat) :
    runLoop (n + 1) s = runLoop n t := by
  rw [runLoop, hstep]
  exact if_pos hok

theorem runLoop_of_not_ok (hstep : step s = .next t) (hok : stepReport s ≠ .ok) (n : Nat) :
    runLoop (n + 1) s = (.ended (stepReport s), t) := by
  rw [runLoop, hstep]
  exact if_neg hok

/-- After an Ok step the run state is as it was. -/
theorem runState_of_ok (hstep : step s = .next t) (hok : stepReport s = .ok) : t.runState = s.runState := by
  obtain ⟨r, hreport, hto⟩ := stepsTo_of_step hstep
  rcases hto.agrees with ⟨-, -, hkeep⟩ | ⟨rfl, -⟩ | ⟨rfl, -⟩ | ⟨rfl, -⟩
  · exact hkeep
  all_goals rw [hok] at hreport; contradiction

theorem runLoop_inv (hs : s.Inv) (hlive : ¬ s.runState.Terminal) (n : Nat) : (runLoop n s).2.Inv := by
  induction n generalizing s with
  | zero => exact hs.setRunState hlive (by decide)
  | succ n ih =>
    obtain ⟨t, r, hstep, -, -⟩ := step_total s
    have ht : t.Inv := step_inv hstep hs
    by_cases hok : stepReport s = .ok
    · rw [runLoop_of_ok hstep hok]
      exact ih ht (runState_of_ok hstep hok ▸ hlive)
    · rw [runLoop_of_not_ok hstep hok]
      exact ht

theorem run_inv (hs : s.Inv) (n : Nat) : (run n s).2.Inv := by
  by_cases hlive : s.runState.Terminal
  · rcases hlive with h | h <;> rw [run, h] <;> exact hs
  · rw [run_of_live hlive]
    exact runLoop_inv (hs.setRunState hlive (by decide)) (by decide : ¬ RunState.running.Terminal) n

/-- The loop ends as it reports, and each of its steps fetches at most one instruction. -/
theorem runLoop_ends (n : Nat) (s : State) :
    RunEnds (runLoop n s).1 (runLoop n s).2 ∧ s.cycleCount ≤ (runLoop n s).2.cycleCount ∧
      (runLoop n s).2.cycleCount ≤ s.cycleCount + n := by
  induction n generalizing s with
  | zero => exact ⟨.inl ⟨rfl, rfl⟩, le_rfl, le_rfl⟩
  | succ n ih =>
    obtain ⟨t, r, hstep, hreport, hto⟩ := step_total s
    have hcount : s.cycleCount ≤ t.cycleCount ∧ t.cycleCount ≤ s.cycleCount + 1 := by
      rcases hto.cycleCount with ⟨-, h⟩ | ⟨-, h, -⟩ <;> omega
    by_cases hok : stepReport s = .ok
    · rw [runLoop_of_ok hstep hok]
      obtain ⟨hends, hlow, hhigh⟩ := ih t
      exact ⟨hends, by omega, by omega⟩
    · rw [runLoop_of_not_ok hstep hok]
      refine ⟨?_, hcount.1, by simp only; omega⟩
      rw [hreport] at hok ⊢
      rcases hto.agrees with ⟨rfl, -⟩ | ⟨rfl, -, h⟩ | ⟨rfl, h⟩ | ⟨rfl, h⟩
      · contradiction
      · exact .inr (.inl ⟨rfl, h⟩)
      · exact .inr (.inr (.inl ⟨rfl, h⟩))
      · exact .inr (.inr (.inr ⟨rfl, h⟩))

theorem run_ends (n : Nat) (s : State) :
    RunEnds (run n s).1 (run n s).2 ∧ s.cycleCount ≤ (run n s).2.cycleCount ∧
      (run n s).2.cycleCount ≤ s.cycleCount + n := by
  by_cases hlive : s.runState.Terminal
  · rcases hlive with h | h <;> rw [run, h]
    · exact ⟨.inr (.inr (.inl ⟨rfl, h⟩)), le_rfl, Nat.le_add_right _ _⟩
    · exact ⟨.inr (.inr (.inr ⟨rfl, h⟩)), le_rfl, Nat.le_add_right _ _⟩
  · rw [run_of_live hlive]
    exact runLoop_ends n (s.setRunState .running)

/-! ### The host's actions and the invariant -/

theorem State.addBreakpoint_of_invalid {a : Int} (h : a < 0 ∨ 1024 ≤ a) :
    s.addBreakpoint a = (.rejectedInvalidAddress a, s) := dif_neg (by omega)

theorem State.Inv.addBreakpoint (hs : s.Inv) (a : Int) : (s.addBreakpoint a).2.Inv := by
  by_cases ha : a < 0 ∨ 1024 ≤ a
  · rw [State.addBreakpoint_of_invalid ha]
    exact hs
  · have haddr := State.addBreakpoint_of_valid s ⟨a.toNat, by omega⟩
    rw [Int.toNat_of_nonneg (by omega)] at haddr
    rw [haddr]
    exact hs.setBreakpoints (tableWf_addSlot hs.table_wf)

theorem State.Inv.removeBreakpoint (hs : s.Inv) (a : Int) : (s.removeBreakpoint a).2.Inv := by
  unfold State.removeBreakpoint
  split
  · exact hs.setBreakpoints (tableWf_disableAt hs.table_wf)
  · exact hs

theorem State.Inv.loadProgram {ws : List Word} (hs : s.Inv) (h : s.loadProgram ws = some t) : t.Inv := by
  by_cases hfit : ws.length ≤ memWords
  · rw [State.loadProgram_of_fits hfit] at h
    obtain rfl := Option.some.inj h
    exact hs.setMem (Memory.wf_loadWords hs.mem_wf (by omega))
  · rw [State.loadProgram_of_too_long (Nat.not_le.mp hfit)] at h
    contradiction

/-! ### Stepping at a breakpoint -/

theorem StopsAt.step (h : StopsAt s k b) : step s = .next (s.afterHits k b 1) ∧ stepReport s = .breakpoint :=
  breakpointStopsBeforeTheFetch s k b h.live h.table h.slot h.enabled h.atPc

theorem map_setting_set_hitCount {bs : List Breakpoint} (h : bs[k]? = some b) (count : Nat) :
    (bs.set k { b with hitCount := count }).map Breakpoint.setting = bs.map Breakpoint.setting := by
  obtain ⟨hk, rfl⟩ := List.getElem?_eq_some_iff.mp h
  calc (bs.set k { bs[k] with hitCount := count }).map Breakpoint.setting
      = (bs.set k bs[k]).map Breakpoint.setting := by rw [List.map_set, List.map_set]; rfl
    _ = bs.map Breakpoint.setting := by rw [List.set_getElem_self]

/-- Hits leave the breakpoint where it is. -/
theorem StopsAt.afterHits (h : StopsAt s k b) (n : Nat) :
    StopsAt (s.afterHits k b n) k { b with hitCount := b.hitCount + n } := by
  obtain ⟨hk, -⟩ := List.getElem?_eq_some_iff.mp h.slot
  refine ⟨by simp [State.afterHits], tableWf_of_map_setting (map_setting_set_hitCount h.slot _) h.table, ?_,
    h.enabled, h.atPc⟩
  exact List.getElem?_set_self hk

theorem StopsAt.steps (h : StopsAt s k b) (n : Nat) : steps (n + 1) s = .next (s.afterHits k b (n + 1)) := by
  induction n generalizing s b with
  | zero => exact steps_succ h.step.1 0
  | succ n ih =>
    rw [steps_succ h.step.1, ih (h.afterHits 1)]
    simp only [State.afterHits, List.set_set, Nat.add_assoc, Nat.add_comm 1]

/-! ### The obligations -/

/-- Settles O54: each action is one of the updates that keep the invariant; `run` is steps and two changes of a run state
that is not terminal. -/
theorem hostActionsKeepTheInvariant : Obligations.HostActionsKeepTheInvariant := by
  intro s hs
  have hreset : (State.init s.cfg).Inv := State.init_inv hs.cfg_wf
  exact ⟨hreset.setBreakpoints hs.table_wf, fun _ _ => hs.loadProgram, hs.setX, fun _ => hs, fun _ => hs,
    hs.addBreakpoint, hs.removeBreakpoint, run_inv hs⟩

/-- Settles O13: a hit keeps what makes the breakpoint stop, so every further step is a hit. -/
theorem enabledBreakpointAlwaysRetriggers : Obligations.EnabledBreakpointAlwaysRetriggers := by
  intro s k b hlive htable hk hen haddr
  have hstops : StopsAt s k b := ⟨hlive, htable, hk, hen, haddr⟩
  refine ⟨hstops.steps, fun n => ?_, ?_⟩
  · cases n with
    | zero => exact ⟨s, rfl, hstops.step.2⟩
    | succ n => exact ⟨_, hstops.steps n, (hstops.afterHits (n + 1)).step.2⟩
  · rw [State.removeBreakpoint_of_mem (List.mem_of_getElem? hk) hen]
    refine ⟨rfl, fun c hc hat => ?_⟩
    exact not_enabledAt_of_mem_disableAt hc (Breakpoint.enabledAt_iff.mpr ⟨hat.1, hat.2.trans haddr.symm⟩)

/-- Settles O55: the address check, the duplicate check, then the lowest disabled slot, a new slot, or no room. -/
theorem addTakesTheFirstFreeSlot : Obligations.AddTakesTheFirstFreeSlot := by
  refine ⟨fun s a ha => State.addBreakpoint_of_invalid ha, fun s a => ⟨fun hdup => ?_, fun hnew => ⟨?_, ?_⟩⟩⟩
  · rw [State.addBreakpoint_of_valid, addSlot_of_duplicate hdup]
    rfl
  · intro k old hk hold hlow
    rw [State.addBreakpoint_of_valid, addSlot_of_reuse hnew (reuseSlot_of_lowest hk hold hlow)]
    rfl
  · intro hall
    have hnone : reuseSlot (freshSlot a) s.breakpoints = none := reuseSlot_none_iff.mpr hall
    refine ⟨fun hroom => ?_, fun hfull => ?_⟩
    · rw [State.addBreakpoint_of_valid, addSlot_of_room hnew hnone hroom]
      rfl
    · rw [State.addBreakpoint_of_valid, addSlot_of_full hnew hnone hfull]
      rfl

/-- Settles O56: in a well-formed table the slot at the address is the only one that `remove` marks. -/
theorem removeDisablesTheSlot : Obligations.RemoveDisablesTheSlot := by
  refine fun s a => ⟨?_, fun hnone => if_neg ?_⟩
  · rintro k b ⟨-, huniq⟩ hk hen rfl
    rw [State.removeBreakpoint_of_mem (List.mem_of_getElem? hk) hen,
      disableAt_of_enabledAt huniq hk (Breakpoint.enabledAt_iff.mpr ⟨hen, rfl⟩)]
    rfl
  · rintro ⟨ha, hany⟩
    obtain ⟨b, hb, hen, haddr⟩ := any_enabledAt_iff.mp hany
    exact hnone b hb ⟨hen, by omega⟩

/-- Settles O57: word by word, and the loader writes from 0 on only. -/
theorem loaderPlacesTheProgram : Obligations.LoaderPlacesTheProgram := by
  refine fun s ws hmem => ⟨fun hfit => ⟨_, State.loadProgram_of_fits hfit, rfl, fun k w hk => ?_, fun b hb => ?_⟩,
    State.loadProgram_of_too_long⟩
  · have hread := read_loadWords (base := 0) hmem (by rw [Nat.zero_add]; exact hfit) hk
    rwa [Nat.zero_add] at hread
  · exact read_loadWords_of_ge (by rwa [Nat.zero_add])

/-- Settles O58: an Ok step from Running ends in Running, so the rest of the budget is a run from there. -/
theorem runEndsAsItReports : Obligations.RunEndsAsItReports := by
  refine ⟨fun s hlive => run_of_live hlive 0, fun n s t hlive hstep => ⟨fun hok => ?_, fun hok => ?_⟩, fun n s => ?_⟩
  · have ht : t.runState = .running := runState_of_ok hstep hok
    have hrunning : t.setRunState .running = t := by rw [State.setRunState, ← ht]
    rw [run_of_live hlive, run_of_live (by rw [ht]; decide), hrunning]
    exact runLoop_of_ok hstep hok n
  · rw [run_of_live hlive]
    exact runLoop_of_not_ok hstep hok n
  · exact ⟨_, rfl, run_ends n s⟩

/-- Settles O51: `reset` is `init` but for the table, and `init` writes the values of the spec's table. -/
theorem resetLeavesTheListedValues : Obligations.ResetLeavesTheListedValues :=
  ⟨fun _ => ⟨_, rfl, rfl, rfl, rfl, rfl, rfl, rfl, fun _ => rfl, rfl, rfl, rfl, rfl, rfl, rfl, rfl, rfl⟩, rfl, rfl, rfl⟩

end Sys2Proof.Machine
end

section
/-! PROOF. The statements about what an instruction computes (41_addressing.md R127; 42_load_store.md; 43_alu.md). -/

namespace Sys2Proof.Machine

variable {s t : State} {mode : BitVec 2} {opd : BitVec 10} {v : Word} {e : ErrorCause}

/-! ### Flags and wrapping -/

theorem exceedsWord_eq (i : Int) : exceedsWord i = decide (i < -32768 ∨ 32767 < i) :=
  (Bool.decide_or _ _).symm

/-- The low 16 bits are the exact integer exactly when it is in the signed range. -/
theorem exceedsWord_iff (i : Int) : exceedsWord i = true ↔ i.bmod 65536 ≠ i := by
  rw [exceedsWord_eq, decide_eq_true_iff, Int.bmod]
  split <;> omega

theorem toInt_trunc16 (i : Int) : (trunc16 i).toInt = i.bmod 65536 := BitVec.toInt_ofInt i

/-- The arithmetic flag rule in the statements' words. -/
theorem arithFlags_eq (i : Int) :
    arithFlags i = { z := decide (i = 0), n := decide (i < 0), c := decide (i < -32768 ∨ 32767 < i)
                     v := decide (i < -32768 ∨ 32767 < i) } := by
  rw [arithFlags, exceedsWord_eq]

/-- The flags of a difference order its terms as signed integers. -/
theorem arithFlags_sub (a v : Word) :
    arithFlags (a.toInt - v.toInt) =
      { z := decide (a = v), n := a.slt v
        c := decide (a.toInt - v.toInt < -32768 ∨ 32767 < a.toInt - v.toInt)
        v := decide (a.toInt - v.toInt < -32768 ∨ 32767 < a.toInt - v.toInt) } := by
  have hzero : a.toInt - v.toInt = 0 ↔ a = v := by rw [sub_eq_zero, BitVec.toInt_inj]
  have hneg : a.toInt - v.toInt < 0 ↔ a.toInt < v.toInt := sub_neg
  rw [arithFlags_eq, BitVec.slt_eq_decide]
  simp only [hzero, hneg]

/-! ### Arithmetic -/

/-- ADD, SUB and MUL write the exact result that the statements name. -/
theorem exec_addSubMul (hv : ReadsOperand s mode opd v) {p : Instr × Int}
    (hp : p ∈ [(Instr.add mode opd, s.a.toInt + v.toInt), (.sub mode opd, s.a.toInt - v.toInt),
      (.mul mode opd, s.a.toInt * v.toInt)]) : exec p.1 s = .next (s.writeArith p.2) := by
  simp only [List.mem_cons, List.not_mem_nil, or_false] at hp
  obtain rfl | rfl | rfl := hp
  · exact complete_map_of_readsOperand hv fun v => s.writeArith (s.a.toInt + v.toInt)
  · exact complete_map_of_readsOperand hv fun v => s.writeArith (s.a.toInt - v.toInt)
  · exact complete_map_of_readsOperand hv fun v => s.writeArith (s.a.toInt * v.toInt)

theorem exec_div (hv : ReadsOperand s mode opd v) (hne : v.toInt ≠ 0) :
    exec (.div mode opd) s = .next (s.writeArith (quotient s.a.toInt v.toInt)) := by
  rw [exec, execDiv, resolveValue_ok_iff.mpr hv]
  simp only [Except.bind, if_neg hne, complete_ok]

/-- The remainder of the quotient rounded toward zero is smaller than the divisor. -/
theorem abs_tmod_lt (a : Int) {b : Int} (hb : b ≠ 0) : |a.tmod b| < |b| := by
  rw [Int.abs_eq_natAbs, Int.abs_eq_natAbs, Int.natAbs_tmod]
  exact_mod_cast Nat.mod_lt _ (Int.natAbs_pos.mpr hb)

theorem tmod_nonpos {a : Int} (b : Int) (ha : a ≤ 0) : a.tmod b ≤ 0 := by
  have h := Int.tmod_nonneg b (neg_nonneg.mpr ha)
  rw [Int.neg_tmod] at h
  exact neg_nonneg.mp h

/-! ### The obligations -/

/-- Settles O23: an unassigned mode code fails every resolution. -/
theorem unassignedModeIsInvalidAddressingMode : Obligations.UnassignedModeIsInvalidAddressingMode := by
  refine ⟨fun s mode opd hnone i hi => ?_, fun mode hnone => ?_⟩
  · have hfails : ReadFails s mode opd (.invalidAddressingMode mode) := .inl ⟨hnone, rfl⟩
    rcases List.mem_cons.mp hi with rfl | hi
    · exact exec_of_raises (.store (.inr hfails))
    · exact exec_of_raises (.operand hi hfails)
  · obtain ⟨m, hm⟩ := defaultConfig_modeOf_total mode
    rw [hm] at hnone; contradiction

/-- Settles O24: an immediate names no address. -/
theorem storeThroughImmediateIsAnError : Obligations.StoreThroughImmediateIsAnError :=
  fun _ _ _ himm => exec_of_raises (.store (.inl ⟨himm, rfl⟩))

/-- Settles O25: the ten resolve their operand first. -/
theorem operandErrorsTakeTheErrorPath : Obligations.OperandErrorsTakeTheErrorPath :=
  fun _ _ _ _ => ⟨fun h _ hi => exec_of_raises (.operand hi h), fun h => exec_of_raises (.store h)⟩

/-- Settles O26: LDA writes the operand's value and the load flags. -/
theorem ldaLoadsTheOperand : Obligations.LdaLoadsTheOperand :=
  fun s _ _ _ hv => complete_map_of_readsOperand hv fun v => (s.setA v).setFlags (loadFlags v)

/-- Settles O27: STA is one write to memory, and a read gives the word last written or the one before. -/
theorem staStoresTheAccumulator : Obligations.StaStoresTheAccumulator := by
  intro s mode opd a hmem hstores
  refine ⟨_, exec_sta_of_storesTo hstores, rfl, fun b => ?_⟩
  rw [State.setMem_mem]
  split
  · subst b; exact Memory.read_write_same hmem
  · exact Memory.read_write_other ‹_›

/-- Settles O28: the exact result goes through the arithmetic flag rule. -/
theorem addSubMulComputeExactly : Obligations.AddSubMulComputeExactly := by
  intro s mode opd v hv p hp
  rw [exec_addSubMul hv hp, State.writeArith, arithFlags_eq]
  rfl

/-- Settles O29: quotient and remainder of the division rounded toward zero. -/
theorem divRoundsTowardZero : Obligations.DivRoundsTowardZero := by
  intro s mode opd v hv hne
  refine ⟨s.a.toInt.tdiv v.toInt, s.a.toInt.tmod v.toInt, (Int.tdiv_mul_add_tmod _ _).symm, abs_tmod_lt _ hne,
    Int.tmod_nonneg _, tmod_nonpos _, ?_⟩
  rw [exec_div hv hne, State.writeArith, arithFlags_eq]
  rfl

/-- Settles O30: the resolver comes first, and its errors are other ones. -/
theorem divByZeroIsAnError : Obligations.DivByZeroIsAnError := by
  refine fun s mode opd => ⟨fun hzero => exec_of_raises (.divide hzero), fun e hfails => ⟨?_, ?_⟩⟩
  · exact exec_of_raises (.operand (mode := mode) (opd := opd) (by simp [valueInstrs]) hfails)
  · obtain ⟨-, rfl⟩ | ⟨-, -, rfl⟩ | ⟨-, -, rfl⟩ := hfails
    · nofun
    · nofun
    · nofun

/-- Settles O32: CMP writes the flags of the difference alone. -/
theorem cmpOrdersSignedIntegers : Obligations.CmpOrdersSignedIntegers := by
  intro s mode opd v hv
  rw [← arithFlags_sub]
  exact complete_map_of_readsOperand hv fun v => s.setFlags (arithFlags (s.a.toInt - v.toInt))

/-- Settles O33: `A` is the low 16 bits of the exact result, and `V` says that they are not all of it. -/
theorem overflowWrapsAndIsFlagged : Obligations.OverflowWrapsAndIsFlagged := by
  intro s mode opd v hv p hp
  refine ⟨_, exec_addSubMul hv hp, rfl, rfl, toInt_trunc16 p.2, rfl, ?_⟩
  rw [State.writeArith_a, toInt_trunc16]
  exact exceedsWord_iff p.2

end Sys2Proof.Machine
end

section
/-! PROOF. The statements about the control transfers and the stack (44_control.md; 90_conflicts.md C1). -/

namespace Sys2Proof.Machine

variable {s t : State}

theorem zext10_eq (target : BitVec 10) : zext10 target = BitVec.ofNat 16 target.toNat :=
  (BitVec.ofNat_toNat ..).symm

theorem toNat_zext10 (target : BitVec 10) : (zext10 target).toNat = target.toNat :=
  BitVec.toNat_setWidth_of_le (by decide)

/-- As many calls in a row succeed as there are slots below `SP`, and each takes one. -/
theorem execAll_jsr (targets : List (BitVec 10)) (s : State) (hroom : targets.length ≤ s.sp.toNat)
    (hsp : s.sp.toNat < 1024) :
    ∃ t, execAll (targets.map Instr.jsr) s = .next t ∧ t.sp.toNat + targets.length = s.sp.toNat ∧
      t.runState = s.runState ∧ t.lastError = s.lastError := by
  induction targets generalizing s with
  | nil => exact ⟨s, rfl, rfl, rfl, rfl⟩
  | cons target targets ih =>
    rw [List.length_cons] at hroom ⊢
    have hne : s.sp ≠ 0 := by
      rintro h0
      rw [h0] at hroom
      simp at hroom
    have hdown := toNat_sub_one hne
    obtain ⟨t, hrun, hslots, hstate, herror⟩ :=
      ih (((s.setMem (s.mem.write s.sp.toNat s.pc)).setSp (s.sp - 1)).jumpTo target)
        (by simp only [State.jumpTo_sp, State.setSp_sp]; omega) (by simp only [State.jumpTo_sp, State.setSp_sp]; omega)
    simp only [State.jumpTo_sp, State.setSp_sp] at hslots
    refine ⟨t, ?_, by omega, hstate, herror⟩
    rw [List.map_cons, execAll, exec_jsr_of_room target hne hsp]
    exact hrun

/-! ### The obligations -/

/-- Settles O34: the jump replaces `PC`, and a jump not taken leaves it. -/
theorem jumpsLoadThePc : Obligations.JumpsLoadThePc := by
  intro s target
  rw [← zext10_eq]
  refine ⟨rfl, ?_, ?_⟩
  · rw [exec, execJz]
    split <;> rfl
  · rw [exec, execJnz]
    split <;> rfl

/-- Settles O36: one write to memory at the old `SP`, which then goes down without a wrap. -/
theorem jsrPushesTheReturnAddress : Obligations.JsrPushesTheReturnAddress := by
  intro s target hmem hroom hsp
  refine ⟨_, exec_jsr_of_room target hroom (by omega), toNat_sub_one hroom, toNat_zext10 target, fun b => ?_, rfl⟩
  change (s.mem.write s.sp.toNat s.pc).read b = _
  split
  · subst b; exact Memory.read_write_same hmem
  · exact Memory.read_write_other ‹_›

/-- Settles O37: a full stack is a cause of JSR's error. -/
theorem jsrWithoutRoomIsStackOverflow : Obligations.JsrWithoutRoomIsStackOverflow :=
  fun _ target hzero => exec_of_raises (.call target hzero)

/-- Settles O38: below `STACK_TOP` the incremented `SP` neither wraps nor leaves memory. -/
theorem rtsReturnPopsThePc : Obligations.RtsReturnPopsThePc := by
  intro s hcfg hsp
  obtain ⟨-, htop, -⟩ := hcfg
  have hpending : s.sp < s.cfg.stackTop := hsp
  have hup := toNat_add_one hpending
  refine ⟨?_, hup⟩
  rw [exec_rtsReturn_of_pending hpending (by omega), hup]
  rfl

/-- Settles O39: no pending call is a cause of the return's error. -/
theorem rtsWithoutCallIsStackUnderflow : Obligations.RtsWithoutCallIsStackUnderflow :=
  fun _ htop => exec_of_raises (.ret htop)

/-- Settles O41: the return increments `SP` back to the slot that the call wrote. -/
theorem returnComesBackToTheCall : Obligations.ReturnComesBackToTheCall := by
  refine ⟨fun s target hcfg hmem hroom hsp => ?_, fun s htop => exec_of_raises (.ret (BitVec.le_of_eq htop.symm))⟩
  obtain ⟨-, htop, -⟩ := hcfg
  refine ⟨_, exec_jsr_of_room target hroom (by omega), fun w hwcfg hwsp hwmem => ?_⟩
  change w.cfg = s.cfg at hwcfg
  change w.sp = s.sp - 1 at hwsp
  have hback : w.sp + 1 = s.sp := by rw [hwsp, BitVec.sub_add_cancel]
  have hpending : w.sp < w.cfg.stackTop := by
    have hdown := toNat_sub_one hroom
    rw [hwsp, hwcfg]
    exact BitVec.lt_def.mpr (by omega)
  refine ⟨_, exec_rtsReturn_of_pending hpending (by rw [hback]; omega), ?_, hback⟩
  calc w.mem.read (w.sp + 1).toNat = w.mem.read s.sp.toNat := by rw [hback]
    _ = (s.mem.write s.sp.toNat s.pc).read s.sp.toNat := hwmem
    _ = s.pc := Memory.read_write_same hmem

/-- Settles O42: the calls take the slots from `STACK_TOP` down, and after the last of them `SP` is 0. -/
theorem exactlyStackTopCallsFit : Obligations.ExactlyStackTopCallsFit := by
  intro s targets hcfg hsp hlen
  obtain ⟨-, htop, -⟩ := hcfg
  rw [← hsp] at hlen htop ⊢
  obtain ⟨t, hrun, hslots, hstate, herror⟩ := execAll_jsr targets s hlen (by omega)
  refine ⟨t, hrun, hslots, hstate, herror, fun hall target => exec_of_raises (.call target ?_)⟩
  exact BitVec.eq_of_toNat_eq (show t.sp.toNat = 0 by omega)

end Sys2Proof.Machine
end

section
/-! PROOF. The frames of the instructions (10_state.md R40; 41_addressing.md R128) and the causes of their errors
(60_exceptions.md R220), from what an instruction can do. -/

namespace Sys2Proof.Machine

variable {i : Instr} {s t : State}

/-- NOP and the control transfers read no operand value. -/
theorem not_mem_valueInstrs_of_opcode (hop : i.opcode ∈ [Opcode.nop, .jmp, .jz, .jnz, .jsr, .rts]) (mode : BitVec 2)
    (opd : BitVec 10) : i ∉ valueInstrs mode opd := by
  have hdisjoint : ∀ op ∈ [Opcode.nop, .jmp, .jz, .jnz, .jsr, .rts],
      op ∉ [Opcode.lda, .add, .sub, .mul, .div, .and, .or, .xor, .cmp] := by decide
  exact fun hi => hdisjoint _ hop (opcode_of_mem_valueInstrs hi)

/-- Of NOP and the control transfers only JSR and RTS return can raise an error. -/
theorem Raises.eq_jsr_or_rtsReturn {e : ErrorCause} (h : Raises s i e)
    (hop : i.opcode ∈ [Opcode.nop, .jmp, .jz, .jnz, .jsr, .rts]) : (∃ target, i = .jsr target) ∨ i = .rtsReturn := by
  cases h with
  | operand hi h => exact absurd hi (not_mem_valueInstrs_of_opcode hop _ _)
  | store | divide => simp [Instr.opcode] at hop
  | call target | callOutside target => exact .inl ⟨target, rfl⟩
  | ret | retOutside => exact .inr rfl

/-! ### The obligations -/

/-- Settles O43: an operand-reading instruction ends with `A` and the flags written, or in an error. -/
theorem valueInstructionsFrame : Obligations.ValueInstructionsFrame := by
  intro s t mode opd i hi hrun
  rcases exec_valueInstr_next hi hrun with ⟨a, f, -, hcmp, rfl⟩ | ⟨e, -, rfl⟩
  · exact ⟨fun _ => rfl, rfl, rfl, rfl, rfl, rfl, rfl, rfl, rfl, rfl, rfl, rfl, fun h => hcmp (h ▸ rfl), .inl ⟨rfl, rfl⟩⟩
  · exact ⟨fun _ => rfl, rfl, rfl, rfl, rfl, rfl, rfl, rfl, rfl, rfl, rfl, rfl, fun _ => rfl, .inr ⟨rfl, rfl, rfl⟩⟩

/-- Settles O44: STA writes one word of memory, or takes the error path. -/
theorem staFrame : Obligations.StaFrame := by
  intro s t mode opd hrun
  cases hr : resolveAddr mode opd s with
  | ok k =>
    obtain rfl := Host.Outcome.next.inj ((exec_sta_of_storesTo (resolveAddr_ok_iff.mp hr)).symm.trans hrun)
    refine ⟨rfl, rfl, rfl, rfl, rfl, rfl, rfl, rfl, rfl, rfl, rfl, rfl, fun a ha => ⟨rfl, rfl, fun b hb => ?_⟩, nofun⟩
    obtain rfl := Except.ok.inj ha
    exact Memory.read_write_other hb
  | error e =>
    obtain rfl := Host.Outcome.next.inj ((exec_of_raises (.store (resolveAddr_error_iff.mp hr))).symm.trans hrun)
    exact ⟨rfl, rfl, rfl, rfl, rfl, rfl, rfl, rfl, rfl, rfl, rfl, rfl, nofun, fun _ _ => ⟨rfl, fun _ => rfl⟩⟩

/-- Settles O45: by the writes of the control transfers; only JSR and RTS return have an error path. -/
theorem controlFrame : Obligations.ControlFrame := by
  intro s t target code i hi hrun
  have hop : i.opcode ∈ [Opcode.nop, .jmp, .jz, .jnz, .jsr, .rts] := by
    simpa [Instr.opcode] using List.mem_map_of_mem (f := Instr.opcode) hi
  cases ends_of_exec hrun with
  | failed h =>
    refine ⟨rfl, rfl, rfl, rfl, rfl, rfl, rfl, rfl, rfl, fun _ => rfl, fun hjsr hrts => ?_, .inr ⟨rfl, rfl, rfl, rfl⟩,
      fun _ _ => rfl⟩
    rcases h.eq_jsr_or_rtsReturn hop with ⟨target', rfl⟩ | rfl
    · obtain rfl : target' = target := by simpa using hi
      exact absurd rfl hjsr
    · exact absurd rfl hrts
  | done h =>
    cases h with
    | value hi' => exact absurd hi' (not_mem_valueInstrs_of_opcode hop _ _)
    | store => simp [Instr.opcode] at hop
    | transfer hi' pc =>
      exact ⟨rfl, rfl, rfl, rfl, rfl, rfl, rfl, rfl, rfl, fun _ => rfl, fun _ _ => ⟨rfl, rfl⟩, .inl rfl, fun _ _ => rfl⟩
    | call target' hroom hsp =>
      obtain rfl : target' = target := by simpa using hi
      exact ⟨rfl, rfl, rfl, rfl, rfl, rfl, rfl, rfl, rfl, fun _ => rfl, fun hne _ => absurd rfl hne, .inl rfl,
        fun b hb => Memory.read_write_other (hb rfl)⟩
    | ret hpending hsp =>
      exact ⟨rfl, rfl, rfl, rfl, rfl, rfl, rfl, rfl, rfl, fun _ => rfl, fun _ hne => absurd rfl hne, .inl rfl,
        fun _ _ => rfl⟩
    | halt code' =>
      obtain rfl : code' = code := by simpa using hi
      exact ⟨rfl, rfl, rfl, rfl, rfl, rfl, rfl, rfl, rfl, fun hne => absurd rfl hne, fun _ _ => ⟨rfl, rfl⟩, .inl rfl,
        fun _ _ => rfl⟩

/-- Settles O50: writes do not lead to Error, and the invariant shuts out the two causes outside memory. -/
theorem errorsHaveTheListedCauses : Obligations.ErrorsHaveTheListedCauses := by
  intro i s e hs hnoterror hrun
  generalize ht : Failed s e = t at hrun
  have hstate : t.runState = .error := ht ▸ rfl
  have hsp := hs.sp_le
  have htop := hs.stackTop_le
  cases ends_of_exec hrun with
  | done h =>
    rcases h.halts_or_keeps with ⟨code, -, rfl⟩ | ⟨-, hkeep, -⟩
    · contradiction
    · exact absurd (hkeep.symm.trans hstate) hnoterror
  | failed h =>
    have he := congrArg State.lastError ht
    obtain rfl : e = _ := (ErrorRecord.mk.inj (Option.some.inj he)).1
    cases h with
    | operand hi h => exact .inl ⟨_, _, hi, h⟩
    | store h => exact .inr (.inl ⟨_, _, rfl, h⟩)
    | divide h => exact .inr (.inr (.inl ⟨_, _, rfl, h, rfl⟩))
    | call target h => exact .inr (.inr (.inr (.inl ⟨target, rfl, h, rfl⟩)))
    | callOutside target h => omega
    | ret h => exact .inr (.inr (.inr (.inr ⟨rfl, h, rfl⟩)))
    | retOutside hpending h =>
      rw [toNat_add_one hpending] at h
      have : s.sp.toNat < s.cfg.stackTop.toNat := hpending
      omega

end Sys2Proof.Machine
end
